-- ==== Sys2Proof/Word.lean ====
section
/-! DEFINITION. Words, byte strings and the plain containers of the model. -/

namespace Sys2Proof

/-- A byte of memory (R8). -/
abbrev Byte := BitVec 8
/-- A 32-bit register word (R361). -/
abbrev Word := BitVec 32
/-- A 64-bit quantity of two register words (R363), or a slot word (R183). -/
abbrev Dword := BitVec 64

/-- Sparse data by key. Keys rise strictly; an unlisted key holds the table's default. -/
abbrev Tab (α : Type) := List (Nat × α)

/-- Sparse bytes by address, the form of `Host.Cell`: addresses strictly rising. -/
abbrev Mem := Tab Byte

/-- An exact dyadic value `m * 2^e` (R38: every product and total is one). -/
structure Dy where
  m : Int
  e : Int
  deriving DecidableEq, Repr

/-- The value zero. -/
def Dy.zero : Dy := ⟨0, 0⟩

end Sys2Proof
end

