-- ==== Sys2Proof/Syntax.lean ====
section
/-! DEFINITION. The commands of the block: one constructor of `Instr` per row of the opcode table, with the
operands that come from outside the block (a written value, a pin sample, a received frame, what a physical
fault did) or that name the unit concerned. -/

namespace Sys2Proof

/-- A requester of the register space: 0 the control port, 1 to 4 CC0 to CC3 (R308, R363). -/
abbrev Req := Fin 5

/-- One physical row or column of a physical array (R78): array in physical order, row or column, index. -/
structure Element where
  array : Nat
  isCol : Bool
  index : Nat
  deriving DecidableEq, Repr

/-- What the fuse stage reads (R316): the fuse bits, and from them whether the fuse CRC matches, the die identifier, the sensor trims
and the fuse spare map (log 5). -/
structure FuseRead where
  bits    : BitVec 8192
  crcOk   : Bool
  dieId   : BitVec 64
  trims   : List Word
  retired : List Element
  deriving DecidableEq, Repr

/-- A memory that self-test covers and that has no spares (R318). -/
inductive BistMemory where
  | staging | sump | imagePlane | eventLog | flowstone | coreMemory
  deriving DecidableEq, Repr

/-- One failure self-test finds (R318). -/
inductive BistFinding where
  | element (el : Element)
  | wholeArray (array : Nat)
  | memory (m : BistMemory) (slab : Nat)
  deriving DecidableEq, Repr

/-- What the localisation test finds (R329). -/
inductive Localised where
  | sound
  | row (index : Nat)
  | column
  | other
  deriving DecidableEq, Repr

/-- What a scrub quantum finds in its 256 words (R327, R333, R340). -/
inductive ScrubFinding where
  | clean
  | corrected
  | doubleUnused
  | doubleInUse (unit : BitVec 4) (slab : BitVec 3) (address : BitVec 17)
  deriving DecidableEq, Repr

/-- What the check bits of a control core's memories show in an instruction (R292, R327): nothing, a corrected word, a word
fetched or a word loaded that cannot be corrected. -/
inductive CoreMemory where
  | sound | corrected | badFetch | badLoad
  deriving DecidableEq, Repr

/-- A chunk word in flight: logical array, streamed row, cast column and segment (R59). -/
structure ChunkId where
  array : Nat
  row   : Nat
  col   : Nat
  seg   : Nat
  deriving DecidableEq, Repr

/-- How a write of `APL_APPLY` falls (R368, R369): its bit `out`, and whether the pin's APPLY falls into the same CCLK. -/
structure ApplyWrite where
  out     : Bool
  withPin : Bool
  deriving DecidableEq, Repr

/-- The lowest core supplies of a second, in mV: `vdd_arr` and `vdd_log` (R349, R392). -/
structure CoreSupply where
  arr : Nat
  log : Nat
  deriving DecidableEq, Repr

/-- The commands. The string after each constructor is its row's mnemonic. -/
inductive Instr where
  | rstNFall                                                        -- RST_N_FALL
  | rstNRise                                                        -- RST_N_RISE
  | domainReleaseComplete                                           -- DOMAIN_RELEASE_COMPLETE
  | fuseStageComplete (f : FuseRead)                                -- FUSE_STAGE_COMPLETE
  | spareRecordRestoreWrite (req : Req) (off : BitVec 12) (v : Word) -- SPARE_RECORD_RESTORE_WRITE
  | sparesDone (req : Req)                                          -- SPARES_DONE
  | spareMappingComplete                                            -- SPARE_MAPPING_COMPLETE
  | bistComplete (found : List BistFinding)                         -- BIST_COMPLETE
  | sensorCalibrationComplete (ok : Bool) (sense : List (BitVec 16)) -- SENSOR_CALIBRATION_COMPLETE
  | lifeRecordRestoreWrite (req : Req) (off : BitVec 13) (v : Word) -- LIFE_RECORD_RESTORE_WRITE
  | lifeDone (req : Req)                                            -- LIFE_DONE
  | negotiationStart (up : BitVec 64) (ver : BitVec 2)              -- NEGOTIATION_START
  | negotiationIntervalEnd (up : BitVec 64) (lanes : BitVec 32)     -- NEGOTIATION_INTERVAL_END
  | negotiationTimeout                                              -- NEGOTIATION_TIMEOUT
  | registerWrite (req : Req) (addr : BitVec 24) (be : BitVec 4) (v : Word) -- REGISTER_WRITE
  | coherentLowRead (req : Req) (addr : BitVec 24)                  -- COHERENT_LOW_READ
  | runSet (req : Req)                                              -- RUN_SET
  | pscResolve (req : Req) (cond : BitVec 8) (outcome : Bool)       -- PSC_RESOLVE
  | versionAcquire (req : Req) (binding : BitVec 4) (first last : BitVec 10) -- VERSION_ACQUIRE
  | versionRelease (req : Req) (binding : BitVec 4) (first last : BitVec 10) -- VERSION_RELEASE
  | pscPreempt (req : Req) (q : BitVec 12)                          -- PSC_PREEMPT
  | imgLoad (req : Req)                                             -- IMG_LOAD
  | imageValidate (fetchOk : Bool)                                  -- IMAGE_VALIDATE
  | imgSwap (req : Req)                                             -- IMG_SWAP
  | aplApply (req : Req) (mask : BitVec 16) (out : ApplyWrite)      -- APL_APPLY
  | applyInPulse                                                    -- APPLY_IN_PULSE
  | aplLockSet (req : Req)                                          -- APL_LOCK_SET
  | lifeSave (req : Req)                                            -- LIFE_SAVE
  | rasOutcome (req : Req) (commit lockMatch : Bool)                -- RAS_OUTCOME
  | rasRetryUpdate (req : Req)                                      -- RAS_RETRY_UPDATE
  | rasRetryGather (req : Req)                                      -- RAS_RETRY_GATHER
  | rasSpareSnap (req : Req)                                        -- RAS_SPARE_SNAP
  | evtLatch (req : Req)                                            -- EVT_LATCH
  | evtTailWrite (req : Req) (v : Word)                             -- EVT_TAIL_WRITE
  | mbxOpen (req : Req) (n : BitVec 4)                              -- MBX_OPEN
  | mbxPost (req : Req) (n : BitVec 4)                              -- MBX_POST
  | mbxSnap (req : Req) (n : BitVec 4)                              -- MBX_SNAP
  | intAck (req : Req) (t : Fin 8) (source : BitVec 8)              -- INT_ACK
  | intEoi (req : Req) (t : Fin 8) (source : BitVec 8)              -- INT_EOI
  | intSwset (req : Req) (i : Fin 6) (bits : Word)                  -- INT_SWSET
  | intSwclr (req : Req) (i : Fin 6) (bits : Word)                  -- INT_SWCLR
  | ccHoldSet (req : Req) (core : Fin 4)                            -- CC_HOLD_SET
  | ccHoldClear (req : Req) (core : Fin 4)                          -- CC_HOLD_CLEAR
  | ccWindowWrite (req : Req) (core : Fin 4) (off : BitVec 15) (v : Word) -- CC_WINDOW_WRITE
  | govStateWrite (req : Req) (w : Fin 4) (v : Word)                -- GOV_STATE_WRITE
  | ccInstruction (core : Fin 4) (mem : CoreMemory)                 -- CC_INSTRUCTION
  | ccInterruptTaken (core : Fin 4)                                 -- CC_INTERRUPT_TAKEN
  | zsrd (core : Fin 4) (rd : BitVec 5) (n : BitVec 6)              -- ZSRD
  | zswr (core : Fin 4) (rs1 : BitVec 5) (n : BitVec 6)             -- ZSWR
  | znpop (core : Fin 4) (rd : BitVec 5)                            -- ZNPOP
  | zncnt (core : Fin 4) (rd : BitVec 5)                            -- ZNCNT
  | zres (core : Fin 4) (rs1 : BitVec 5)                            -- ZRES
  | zevt (core : Fin 4) (rs1 rs2 : BitVec 5)                        -- ZEVT
  | zcnt (core : Fin 4) (rs1 : BitVec 5) (n : BitVec 4)             -- ZCNT
  | wsBypass                                                        -- WS_BYPASS
  | wsExtest                                                        -- WS_EXTEST
  | wsIntest                                                        -- WS_INTEST
  | zwMbist                                                         -- ZW_MBIST
  | zwFuseRead                                                      -- ZW_FUSE_READ
  | zwFuseProg (bits : BitVec 8192) (vddFuse : Bool)                -- ZW_FUSE_PROG
  | zwId                                                            -- ZW_ID
  | testEnChange                                                    -- TEST_EN_CHANGE
  | passageSelect                                                   -- PASSAGE_SELECT
  | variantSwap                                                     -- VARIANT_SWAP
  | bundleIssue                                                     -- BUNDLE_ISSUE
  | passageComplete (p : BitVec 12)                                 -- PASSAGE_COMPLETE
  | passageUndoComplete (p : BitVec 12)                             -- PASSAGE_UNDO_COMPLETE
  | passageSuspend                                                  -- PASSAGE_SUSPEND
  | passageResume                                                   -- PASSAGE_RESUME
  | nop (slot : BitVec 7)                                           -- NOP
  | load (a : Fin 64)                                               -- LOAD
  | burst (a : Fin 64) (corrupt : Option (BitVec 17))               -- BURST
  | openGroup (slab : Fin 8)                                        -- OPEN
  | close (slab : Fin 8)                                            -- CLOSE
  | anchor (slab : Fin 8)                                           -- ANCHOR
  | drain (slab : Fin 8)                                            -- DRAIN
  | spill (slab : Fin 8)                                            -- SPILL
  | reload (slab : Fin 8)                                           -- RELOAD
  | combine (slab : Fin 8)                                          -- COMBINE
  | veMap (slab : Fin 8)                                            -- VE_MAP
  | veReduce (slab : Fin 8)                                         -- VE_REDUCE
  | veSelect (slab : Fin 8)                                         -- VE_SELECT
  | veWideAdd (slab : Fin 8)                                        -- VE_WIDE_ADD
  | veWideConvert (slab : Fin 8)                                    -- VE_WIDE_CONVERT
  | veUpdate (slab : Fin 8) (badTile : Option Nat)                  -- VE_UPDATE
  | moveHostToStaging (slab : Fin 8)                                -- MOVE_HOST_TO_STAGING
  | moveStagingToHost (slab : Fin 8)                                -- MOVE_STAGING_TO_HOST
  | moveHostToHost (slab : Fin 8)                                   -- MOVE_HOST_TO_HOST
  | send (slab : Fin 8)                                             -- SEND
  | frameSparse (ch : Fin 2)                                        -- FRAME_SPARSE
  | frameDenseLeaf (ch : Fin 2)                                     -- FRAME_DENSE_LEAF
  | frameGather (ch : Fin 2)                                        -- FRAME_GATHER
  | stats (ch : Fin 2)                                              -- STATS
  | gap                                                             -- GAP
  | notify                                                          -- NOTIFY
  | stationaryLoadComplete (a : Fin 64)                             -- STATIONARY_LOAD_COMPLETE
  | feederFill (a : Fin 64) (m : BitVec 28)                         -- FEEDER_FILL
  | residueCheck (c : ChunkId) (err : Int)                          -- RESIDUE_CHECK
  | rowReplay (a : Fin 64)                                          -- ROW_REPLAY
  | chunkPromote (c : ChunkId)                                      -- CHUNK_PROMOTE
  | drainTileCheck (op : Nat) (tile : Nat)                          -- DRAIN_TILE_CHECK
  | combineComplete (op : Nat)                                      -- COMBINE_COMPLETE
  | runFinish (op : Nat)                                            -- RUN_FINISH
  | moveComplete (op : Nat)                                         -- MOVE_COMPLETE
  | stagingAllocate (slab : Fin 8) (part : BitVec 5)                -- STAGING_ALLOCATE
  | ropeTileArrive (hop : Fin 8)                                    -- ROPE_TILE_ARRIVE
  | ropeHoldTimeout (hop : Fin 8)                                   -- ROPE_HOLD_TIMEOUT
  | bmpRequest (ch : Fin 64)                                        -- BMP_REQUEST
  | bmpReqCredit (ch : Fin 64)                                      -- BMP_REQ_CREDIT
  | bmpWdataCredit (ch : Fin 64)                                    -- BMP_WDATA_CREDIT
  | bmpResponse (ch : Fin 64) (tag : BitVec 10) (code : BitVec 3) (data : List Byte) -- BMP_RESPONSE
  | bmpTimeout (ch : Fin 64) (tag : BitVec 10)                      -- BMP_TIMEOUT
  | bmpChannelDown (ch : Fin 64)                                    -- BMP_CHANNEL_DOWN
  | sendAbortNotice                                                 -- SEND_ABORT_NOTICE
  | frameTransmit (ch : Fin 2)                                      -- FRAME_TRANSMIT
  | rlpTxCredit (ch : Fin 2)                                        -- RLP_TX_CREDIT
  | receiveSparseList (ch : Fin 2) (err : Bool) (bytes : List Byte) -- RECEIVE_SPARSE_LIST
  | receiveDensePartial (ch : Fin 2) (err : Bool) (bytes : List Byte) -- RECEIVE_DENSE_PARTIAL
  | receiveGatherTile (ch : Fin 2) (err : Bool) (bytes : List Byte) -- RECEIVE_GATHER_TILE
  | receiveStatistics (ch : Fin 2) (err : Bool) (bytes : List Byte) -- RECEIVE_STATISTICS
  | receiveAbortNotice (ch : Fin 2) (err : Bool) (bytes : List Byte) -- RECEIVE_ABORT_NOTICE
  | receiveOutcome (ch : Fin 2) (err : Bool) (bytes : List Byte)    -- RECEIVE_OUTCOME
  | ownerWindowAllocate (slab : Fin 8)                              -- OWNER_WINDOW_ALLOCATE
  | ownerAdd (group : Fin 64) (member : BitVec 16)                  -- OWNER_ADD
  | ownerConvert (group : Fin 64) (u : BitVec 32)                   -- OWNER_CONVERT
  | denseNodeAdd (group : Fin 64) (u : BitVec 32) (level : Fin 17)  -- DENSE_NODE_ADD
  | statsFragmentSend (i : Fin 4)                                   -- STATS_FRAGMENT_SEND
  | deadlineExpire                                                  -- DEADLINE_EXPIRE
  | outcomeTimeout                                                  -- OUTCOME_TIMEOUT
  | peerFail (rank : BitVec 16)                                     -- PEER_FAIL
  | laneDown (lane : Fin 32)                                        -- LANE_DOWN
  | leakyDecay (cls : Fin 5) (index : BitVec 16)                    -- LEAKY_DECAY
  | localisationTest (array : Nat) (found : Localised)              -- LOCALISATION_TEST
  | retirementApply (array : Nat)                                   -- RETIREMENT_APPLY
  | scrubQuantum (unit : Nat) (bank : Nat) (found : ScrubFinding)   -- SCRUB_QUANTUM
  | sensorCalibrationQuantum (sense : List (BitVec 16))             -- SENSOR_CALIBRATION_QUANTUM
  | spareColumnSelfTest (el : Element) (ok : Bool)                  -- SPARE_COLUMN_SELF_TEST
  | telemetrySnapshot (sense : List (BitVec 16))                    -- TELEMETRY_SNAPSHOT
  | lifetimeFlush                                                   -- LIFETIME_FLUSH
  | forcedBackgroundSlot (job : Fin 5) (unit : BitVec 20)           -- FORCED_BACKGROUND_SLOT
  | pwrCapStrobe (cap : BitVec 10)                                  -- PWR_CAP_STROBE
  | powerWindow (est : Nat)                                         -- POWER_WINDOW
  | droopFall                                                       -- DROOP_FALL
  | droopRise                                                       -- DROOP_RISE
  | rampStep                                                        -- RAMP_STEP
  | pwrRampAck                                                      -- PWR_RAMP_ACK
  | rampTimeout                                                     -- RAMP_TIMEOUT
  | histogramSecond (temp16 : Int) (mv : CoreSupply)                -- HISTOGRAM_SECOND
  | eventLogWrite (source : BitVec 8)                               -- EVENT_LOG_WRITE
  | tsEpoch                                                         -- TS_EPOCH
  | intDelivery                                                     -- INT_DELIVERY
  | moderationExpire (t : Fin 8)                                    -- MODERATION_EXPIRE
  | rlpLaneUp (lanes : BitVec 32) (ver : BitVec 2)                  -- RLP_LANE_UP
  | applyOutPulseEnd                                                -- APPLY_OUT_PULSE_END
  | drainComplete (op : Nat)                                        -- DRAIN_COMPLETE
  | spillComplete (op : Nat)                                        -- SPILL_COMPLETE
  | reloadComplete (op : Nat)                                       -- RELOAD_COMPLETE
  deriving DecidableEq, Repr

end Sys2Proof
end

