-- ==== Sys2Proof/Machine/Codes.lean ====
section
/-! DEFINITION. Event codes (R307, R326, R344, R360). -/

namespace Sys2Proof.Machine

def Ev.reservedWrite : Nat := 0x0100
def Ev.imageLoaded : Nat := 0x0200
def Ev.imageRejected : Nat := 0x0201
def Ev.imageSwapRefused : Nat := 0x0202
def Ev.imageSwapped : Nat := 0x0203
def Ev.bundleInvalid : Nat := 0x0300
def Ev.contextInvalid : Nat := 0x0301
def Ev.passageInvalid : Nat := 0x0302
def Ev.variantInvalid : Nat := 0x0303
def Ev.resolveConflict : Nat := 0x0304
def Ev.passageUndone : Nat := 0x0305
def Ev.stepCommit : Nat := 0x0306
def Ev.maskInvalid : Nat := 0x0307
def Ev.versionInvalid : Nat := 0x0308
def Ev.versionTokenLimit : Nat := 0x0309
def Ev.versionReleaseUnheld : Nat := 0x030A
def Ev.versionUnbound : Nat := 0x030B
def Ev.versionHold : Nat := 0x030C
def Ev.streamInvalid : Nat := 0x0400
def Ev.jitRequant : Nat := 0x0401
def Ev.rescaleBound : Nat := 0x0402
def Ev.calibrationExceeded : Nat := 0x0403
def Ev.outlierInvalid : Nat := 0x0404
def Ev.ruleInvalid : Nat := 0x0405
def Ev.govStateBusy : Nat := 0x0406
def Ev.govLockMismatch : Nat := 0x0407
def Ev.govLockInvalid : Nat := 0x0408
def Ev.govMove : Nat := 0x0409
def Ev.residueMismatch : Nat := 0x0800
def Ev.arrayFailed : Nat := 0x0801
def Ev.arrayDisabled : Nat := 0x0802
def Ev.feederBound : Nat := 0x0803
def Ev.feederInvalid : Nat := 0x0804
def Ev.sumpSaturate : Nat := 0x0805
def Ev.sumpBound : Nat := 0x0806
def Ev.promotionLimit : Nat := 0x0807
def Ev.groupConflict : Nat := 0x0808
def Ev.groupClosed : Nat := 0x0809
def Ev.anchorMismatch : Nat := 0x080A
def Ev.combineRoute : Nat := 0x080B
def Ev.consumerUndeclared : Nat := 0x080C
def Ev.veInvalid : Nat := 0x080D
def Ev.veBound : Nat := 0x080E
def Ev.updateUncorrectable : Nat := 0x080F
def Ev.scheduleInvalid : Nat := 0x0810
def Ev.moverInvalid : Nat := 0x0811
def Ev.descriptorBound : Nat := 0x0812
def Ev.ropeInvalid : Nat := 0x0813
def Ev.ropeHold : Nat := 0x0814
def Ev.stagingBound : Nat := 0x0815
def Ev.bmpUncorrectable : Nat := 0x1000
def Ev.bmpAddressError : Nat := 0x1001
def Ev.bmpChannelRetired : Nat := 0x1002
def Ev.groupInvalid : Nat := 0x1100
def Ev.collectiveInvalid : Nat := 0x1101
def Ev.frameInvalid : Nat := 0x1102
def Ev.frameMismatch : Nat := 0x1103
def Ev.maskMismatch : Nat := 0x1104
def Ev.outcomeLost : Nat := 0x1105
def Ev.spareRecordRejected : Nat := 0x1200
def Ev.faultPermanent : Nat := 0x1201
def Ev.laneRetired : Nat := 0x1202
def Ev.creditsReclaimed : Nat := 0x1203
def Ev.uncorrectable : Nat := 0x1204
def Ev.preemptRefused : Nat := 0x1205
def Ev.passageSuspended : Nat := 0x1206
def Ev.passageResumed : Nat := 0x1207
def Ev.auditFailed : Nat := 0x1208
def Ev.bgForced : Nat := 0x1209
def Ev.spareTestFailed : Nat := 0x120A
def Ev.outcomeApplied : Nat := 0x120B
def Ev.gatherRetry : Nat := 0x120C
def Ev.attemptLimit : Nat := 0x120D
def Ev.lifeRecordRejected : Nat := 0x1300
def Ev.lifeSaved : Nat := 0x1301
def Ev.telWriteFailed : Nat := 0x1302
def Ev.droopPause : Nat := 0x1400
def Ev.capChanged : Nat := 0x1401
def Ev.rampTimeout : Nat := 0x1402
def Ev.throttleActive : Nat := 0x1403
def Ev.tsEpoch : Nat := 0x1500
def Ev.bootFailed : Nat := 0x1600
def Ev.bistRetired : Nat := 0x1601
def Ev.bmpCreditExcess : Nat := 0x1602
def Ev.negotiated : Nat := 0x1603
def Ev.engineReady : Nat := 0x1604
def Ev.startNotReady : Nat := 0x1605
def Ev.ccTrap : Nat := 0x1800
def Ev.precondRejected : Nat := 0x1801

end Sys2Proof.Machine
end

