-- ==== Sys2Proof/Config.lean ====
section
/-! DEFINITION. What the implementation fixes and the spec leaves open: free values. Each is a constant without a
body, so that no proof can lean on a value of it. -/

namespace Sys2Proof.Config

/-- The byte host memory holds at an address that neither the engine has written nor a response has shown (log 2). -/
opaque hostByte : Nat → Byte
/-- Whether the surroundings have host memory at an address; the spec gives its size nowhere (R122, R268, log 92). -/
opaque hostHas : Nat → Bool
/-- A staging byte that no write has reached since its slot was allocated: allocation epoch, byte key (R279, log 3). -/
opaque staleByte : Nat → Nat → Byte
/-- A byte of control-core memory that nothing has written since the last reset: count of resets, byte key (R293, R315,
log 3). -/
opaque coreByte : Nat → Nat → Byte
/-- An s184 total after the promotion limit is exceeded, unspecified by R90 (log 8). -/
opaque freeTotal : Nat → Int
/-- Nanoseconds of TCLK that pass in a step of idling, from the free-value counter (R6, log 7). -/
opaque tclkElapsed : Nat → Nat
/-- CCLK beyond the first that an instruction of a control core takes (R291, log 7). -/
opaque cclkExtra : Nat → Nat
/-- The scale exponent of a streamed segment whose elements lie in tiles of different scales (R142), or that a reader takes from a side
table written under another base or pitch (R141), unspecified by R7: free-value counter, place (log 8). -/
opaque freeScale : Nat → Nat → Int
/-- A byte of a table that software changed within the step, against R121 or R136: address, the byte at the step's start, the byte that
host memory holds (log 8). -/
opaque changedByte : Nat → Byte → Byte → Byte
/-- A byte of a table read that straddles a window's edge and is not issued, by address (R252, log 19). -/
opaque straddledByte : Nat → Byte
/-- A byte of a write that could not be completed: free-value counter, address (R273, log 131). -/
opaque freeByte : Nat → Nat → Byte
/-- A nibble of an element of staging that a RUN leaves unspecified, because an output overlaps an input or the other output (R218):
free-value counter, place (log 8). -/
opaque freeNibble : Nat → Nat → Nat
/-- The seed that draws use once software has changed the live seed within the step, against R46: free-value counter (log 8). -/
opaque freeSeed : Nat → Nat
/-- The live value of an error-feedback register made live within a step, unspecified by R7 and R252: free-value counter, address
(log 8). -/
opaque freeReg : Nat → Nat → Word
/-- The payload of an event whose rule names no payload field, by code and free-value counter (R308, log 32). -/
opaque openPayload : Nat → Nat → BitVec 24
/-- ACLK from when the issue unit comes to a bundle until it has been fetched, by the ACLK count (R194, R210, log 2). -/
opaque fetchTime : Nat → Nat
/-- The cause of a stall ACLK to which no row of R209 applies, by the ACLK count (R191, R209, log 18). -/
opaque openCause : Nat → Nat
/-- Which of the free tags a request takes, from the free-value counter (R269, log 31). -/
opaque tagPick : Nat → Nat
/-- The word or chunk address in the payload of `uncorrectable`, by unit and place: 8 the request's address, 9 the
chunk's row and column (R344, log 33). -/
opaque errorWord : Nat → Nat → Nat
/-- What a register of the test wrapper holds whose contents come from the surroundings: what a scan or boundary register shows, and
what the tester shifts into one (R394, log 16). -/
opaque scanBits : Nat → BitVec 8192
/-- What the tester has shifted into the cell of the boundary register for an output pin's bit: free-value counter, bit (R394, log 16). -/
opaque boundaryCell : Nat → Nat → Bool
/-- The level of `wrstn` that the surroundings drive, from the free-value counter (R387, log 16). -/
opaque wrstLevel : Nat → Bool
/-- The levels of `irq_h_idle` that the surroundings drive, from the free-value counter (R302, R387, log 20). -/
opaque hostIdle : Nat → BitVec 4

end Sys2Proof.Config
end

