-- ==== Sys2Proof/Machine/Bits.lean ====
section
/-! DEFINITION. Sparse tables, bit fields, little-endian byte strings, saturating counts and CRC-32C. -/

namespace Sys2Proof

/-- The value at a key, `d` where the key is not listed. -/
def Tab.get {α : Type} (d : α) (t : Tab α) (k : Nat) : α := (List.lookup k t).getD d

/-- Set the value at a key, keeping the keys rising. -/
def Tab.put {α : Type} : Tab α → Nat → α → Tab α
  | [], k, v => [(k, v)]
  | (k', v') :: t, k, v =>
    if k < k' then (k, v) :: (k', v') :: t
    else if k = k' then (k, v) :: t
    else (k', v') :: Tab.put t k v

/-- Change the value at a key. -/
def Tab.upd {α : Type} (d : α) (t : Tab α) (k : Nat) (f : α → α) : Tab α := t.put k (f (t.get d k))

/-- Drop every key from `lo` to below `lo + n`. -/
def Tab.dropRange {α : Type} (t : Tab α) (lo n : Nat) : Tab α :=
  t.filter (fun kv => kv.1 < lo || lo + n ≤ kv.1)

/-- Keys rise strictly. -/
def Tab.sorted {α : Type} (t : Tab α) : Prop := List.Pairwise (fun a b => a.1 < b.1) t

/-- The canonical form of a byte memory: addresses strictly rising. An unlisted address holds no byte, so no entry
can equal what it reads as. -/
abbrev Mem.wf (m : Mem) : Prop := Tab.sorted m

/-- The byte at an address, if one is listed. -/
def Mem.byte? (m : Mem) (a : Nat) : Option Byte := List.lookup a m

/-- Write a byte. -/
def Mem.setByte (m : Mem) (a : Nat) (b : Byte) : Mem := Tab.put m a b

/-- Write consecutive bytes. -/
def Mem.setBytes (m : Mem) (a : Nat) : List Byte → Mem
  | [] => m
  | b :: bs => Mem.setBytes (Mem.setByte m a b) (a + 1) bs

/-- Lay the bytes of a memory over another one. -/
def Mem.lay (m k : Mem) : Mem := k.foldl (fun n x => Mem.setByte n x.1 x.2) m

/-- Bits `[hi:lo]` of a number (R8). -/
def fld (x hi lo : Nat) : Nat := (x >>> lo) % 2 ^ (hi + 1 - lo)

/-- Bit `i` of a number. -/
def bitAt (x i : Nat) : Bool := x.testBit i

/-- A number read as a two's-complement value of `w` bits. -/
def signed (w x : Nat) : Int := let y := x % 2 ^ w; if 2 * y < 2 ^ w then (y : Int) else (y : Int) - (2 ^ w : Nat)

/-- The low `w` bits of an integer, as a number. -/
def lowBits (w : Nat) (x : Int) : Nat := (x % (2 ^ w : Nat)).toNat

/-- The little-endian number a byte string spells (R8). -/
def leNat : List Byte → Nat
  | [] => 0
  | b :: bs => b.toNat + 256 * leNat bs

/-- The `n` little-endian bytes of a number (R8). -/
def leBytes : Nat → Nat → List Byte
  | 0, _ => []
  | n + 1, x => BitVec.ofNat 8 x :: leBytes n (x / 256)

/-- The number spelt by `n` bytes of a byte string from offset `o`; bytes beyond its end count as zero. -/
def fieldAt (bs : List Byte) (o n : Nat) : Nat := leNat ((bs.drop o).take n)

/-- A counter of `w` bits that saturates (R345). -/
def satAdd {w : Nat} (x : BitVec w) (n : Nat) : BitVec w :=
  if x.toNat + n < 2 ^ w then BitVec.ofNat w (x.toNat + n) else BitVec.allOnes w

/-- A natural count that saturates at `top`. -/
def satNat (top x n : Nat) : Nat := min top (x + n)

/-- Bit `i` of a bit vector set to `b`. -/
def setBit {w : Nat} (x : BitVec w) (i : Nat) (b : Bool) : BitVec w :=
  if b then x ||| (BitVec.ofNat w 1 <<< i) else x &&& ~~~(BitVec.ofNat w 1 <<< i)

/-- a is later than b in serial arithmetic (R305). -/
def serialLater (a b : Word) : Bool := let d := (a - b).toNat; 1 ≤ d && d ≤ 2 ^ 31 - 1

/-- One bit step of CRC-32C (log 13). -/
def crcBit (c : Word) : Word := if c.getLsbD 0 then (c >>> 1) ^^^ 0x82F63B78 else c >>> 1

/-- CRC-32C of a byte string (log 13). -/
def crc32c (bs : List Byte) : Word :=
  ~~~ (bs.foldl (fun c b => (List.range 8).foldl (fun c _ => crcBit c) (c ^^^ b.setWidth 32)) 0xFFFFFFFF)

/-- Divide, rounding up. -/
def ceilDiv (a b : Nat) : Nat := (a + b - 1) / b

/-- The least `n` with `2^n` at or above the argument. -/
def log2Up (n : Nat) : Nat := if n ≤ 1 then 0 else Nat.log2 (n - 1) + 1

/-- The largest `r` below `2^bits` with `r^k` at most `x`, built from its high bit downward. -/
def rootBits (k x : Nat) : Nat → Nat → Nat
  | 0, r => r
  | b + 1, r => rootBits k x b (if (r + 2 ^ b) ^ k ≤ x then r + 2 ^ b else r)

/-- Every byte of the string is zero. -/
def allZero (bs : List Byte) : Bool := bs.all (· == 0)

/-- The elements of a list from index `lo` to below `hi`. -/
def slice {α : Type} (l : List α) (lo hi : Nat) : List α := (l.drop lo).take (hi - lo)

/-- The first element that a test accepts, and the list without it. -/
def takeFirst {α : Type} (p : α → Bool) : List α → Option (α × List α)
  | [] => none
  | x :: xs => if p x then some (x, xs) else (takeFirst p xs).map (fun r => (r.1, x :: r.2))

/-- Replace the first element that a test accepts. -/
def mapFirst {α : Type} (p : α → Bool) (f : α → α) : List α → List α
  | [] => []
  | x :: xs => if p x then f x :: xs else x :: mapFirst p f xs

end Sys2Proof
end

