-- ==== Sys2Proof/Machine/Types.lean ====
section
/-! DEFINITION. The parts of the machine's state, as plain data. -/

namespace Sys2Proof.Machine

/-- Configuration class (R3). -/
inductive Cls where
  | z8 | z16 | z32 | z64
  deriving DecidableEq, Repr

/-- What is fixed in the silicon of a delivered block (R3, R212, R316, R372), with the fuse contents as read; `fuseSeen` is what patterns of
fuse bits have been read as (log 5). -/
structure Silicon where
  cls      : Cls
  lanes    : Nat
  rev      : BitVec 8
  dieId    : BitVec 64
  fuseMap  : List Element
  fuseBits : BitVec 8192
  fuseSeen : List FuseRead := []
  deriving DecidableEq, Repr

/-- Levels of the pins that hold a level (R387, R355, R264, R268). -/
structure Pins where
  rstN     : Bool
  testEn   : Bool
  applyOut : Bool
  droopN   : Bool
  capStb   : Bool
  rampReq  : Bool
  rampAck  : Bool
  irqIdle  : BitVec 4
  cap      : BitVec 10
  laneUp   : BitVec 32
  rlpHost  : BitVec 2
  chanUp   : BitVec 64
  wrstN    : Bool := true
  deriving DecidableEq, Repr

/-- Start-up and negotiation (R314, R320 to R325, R395). `coreEpoch` counts resets, for the bytes of core memory that each
leaves undefined (R315, log 3). -/
structure Boot where
  stage         : BitVec 4
  fail          : BitVec 8
  spareRestored : Bool
  lifeRestored  : Bool
  spareWritten  : Bool
  lifeWritten   : Bool
  testHold      : Bool
  interval      : Bool
  excess        : BitVec 64
  rlpSeen       : Option (BitVec 2)
  bmpVer        : BitVec 2
  rlpVer        : BitVec 2
  credits       : BitVec 17
  chan          : BitVec 64
  lanes         : BitVec 32
  coreEpoch     : Nat
  deriving DecidableEq, Repr

/-- TCLK timestamp and epoch (R305), and the ACLK count the issue unit sees (log 7). -/
structure Clock where
  ts    : BitVec 48
  epoch : BitVec 16
  aclk  : Nat
  deriving DecidableEq, Repr

/-- Plain register storage by byte address: live values, and the shadows of RA fields (R10, R11). An unlisted
register holds its reset value. `seen` holds RW registers as the ACLK domain saw them at the last bundle boundary of the passage that
issues (R10, log 108). -/
structure RegFile where
  live     : Tab Word
  seen     : Tab Word
  shadow   : Tab Word
  applied  : BitVec 16
  pin      : Bool
  applyCnt : Word
  deriving DecidableEq, Repr

/-- A requester's own copies (R363, R364). -/
structure ReqState where
  hold   : Option (Nat × Word)
  record : BitVec 128
  ridx   : Word
  copied : Bool
  pval   : BitVec 64
  sval   : BitVec 64
  sseq   : Word
  sready : Bool
  smbx   : BitVec 4
  answer : Word
  deriving DecidableEq, Repr

/-- An event record (R305). -/
structure EvRec where
  source  : BitVec 8
  seq     : BitVec 32
  time    : BitVec 48
  code    : BitVec 16
  payload : BitVec 24
  deriving DecidableEq, Repr

/-- Event sources' queues and the log ring (R305, R309). -/
structure EvtState where
  ring     : Tab EvRec
  head     : Word
  tail     : Word
  overflow : BitVec 64
  queues   : Tab (List EvRec)
  seq      : Tab Word
  deriving DecidableEq, Repr

/-- The interrupt controller (R299 to R304); configuration lies in the registers. `pulse` holds the pulses of sources set to level
sensing until the CCLK's arbitration is over (R301). -/
structure IntState where
  pend  : BitVec 256
  act   : BitVec 256
  atgt  : Tab Nat
  level : BitVec 256
  pulse : BitVec 256
  held  : Tab Nat
  modr  : BitVec 8
  grace : Tab (Word × Nat)
  sw    : BitVec 192
  deriving DecidableEq, Repr

/-- A result mailbox (R311). -/
structure Mailbox where
  value : BitVec 64
  seq   : Word
  ready : Bool
  deriving DecidableEq, Repr

/-- A control core (R291 to R297). -/
structure Core where
  hold     : Bool
  wfi      : Bool
  npop     : Bool
  pc       : Word
  x        : Tab Word
  mie      : Bool
  mpie     : Bool
  meie     : Bool
  mtvec    : Word
  mscratch : Word
  mepc     : Word
  mcause   : Word
  mtval    : Word
  mcycle   : BitVec 64
  minstret : BitVec 64
  ztimeh   : Option Word
  cnt      : Tab Word
  scalar   : Tab Word
  notify   : List Word
  imem     : Mem
  dmem     : Mem
  deriving DecidableEq, Repr

/-- The image loader and the two planes (R160, R176 to R181). `keys` holds the key registers and their valid bits as they
stood when the last load started (R175). -/
structure Img where
  live        : Option (List Byte)
  shadow      : Option (List Byte)
  state       : BitVec 2
  code        : BitVec 8
  sect        : BitVec 16
  swapPending : Bool
  loading     : Option (Nat × Nat)
  keys        : List Word
  variant     : Nat
  staged      : Option Nat
  swapTo      : Option Nat
  deriving DecidableEq, Repr

/-- Quantities of one stream (R137). -/
structure StreamStat where
  bins    : Tab Nat
  clipped : Nat
  under   : Nat
  nonfin  : Nat
  tiles   : Nat
  jit     : Nat
  amax    : Word
  deriving DecidableEq, Repr

/-- Where a passage stands (R199, R200, R204, R206, R335). -/
inductive PStatus where
  | notStarted | running | ended | suspended | undoing | completed | resolvedFalse
  deriving DecidableEq, Repr

/-- A slot of an issued bundle, handed to its unit (R193). `array` is the target array of an array slot word
(R186); `scalars` is the snapshot of R225. -/
structure Slot where
  index   : Nat
  array   : Nat
  word    : Dword
  passage : Nat
  op      : Nat
  scalars : List Word
  deriving DecidableEq, Repr

/-- Scheduler state of one passage in the step's attempt. `unbound` says that it raised `version_unbound` (R130); `nonfin`
keeps the non-finite reads of a speculative passage, by stream and number, which count when it commits (R207); until `gap` its
next bundle waits for a GAP (R191). `rest` keeps, while it is suspended, the slots of its last bundle that wait for chunks a stop has
kept (R94, R335). -/
structure Passage where
  status  : PStatus
  spec    : Bool
  stuck   : Bool
  unbound : Bool
  nonfin  : List (Nat × Nat)
  readyAt : Option Nat
  ptr     : Nat
  bundle  : Nat
  gap     : Nat
  loadTill : Nat
  rowTill : Nat
  rest     : List Slot
  fetchTill : Nat
  deriving DecidableEq, Repr

/-- A tile of a drain whose elements await delivery (R144, R145): block row and column, sump rows and columns. -/
structure DrainTile where
  brow : Nat
  bcol : Nat
  deriving DecidableEq, Repr

/-- What an operation does until it finishes (R193). A RUN that has not run yet holds its sampled scalars in `summary`. -/
inductive OpKind where
  | load (array : Nat)
  | burst (array : Nat)
  | drain (array group : Nat) (ctx : Nat) (mode : Nat) (closes : Bool) (n0 m0 : Nat) (left : List DrainTile) (requant : Bool)
  | spill (array group : Nat)
  | reload (array group : Nat)
  | combine (key : Nat) (sources : List Nat) (promos : Nat)
  | run (slab groups regs : Nat) (desc : Nat) (ran : Bool) (summary : List Word) (dest nz thr sat : Nat)
  | move (slab : Nat) (kind : Nat)
  | send (slab left : Nat)
  | frames (ch left : Nat) (group : Option Nat)
  | stats (ch left : Nat)
  | other
  deriving DecidableEq, Repr

/-- An entry of a finished-tile queue (R213). `codes` is keyed by row * 256 + column within the block. One marked `masked` is no entry: it
keeps the place of a masked block, whose drain pushed none, for the select that would have read it (R123, log 123). -/
structure FtqEntry where
  op     : Nat
  brow   : Nat
  bcol   : Nat
  ready  : Bool
  stream : Nat
  tid    : Nat
  fmt    : Nat
  scale  : Int
  codes  : Tab Nat
  masked : Bool := false
  deriving DecidableEq, Repr

/-- `n` elements of `size` nibbles each, one after the other in a partition's window, from a nibble place that may lie before it. -/
structure Span where
  slab : Nat
  part : Nat
  nib  : Int
  size : Nat
  n    : Nat
  deriving DecidableEq, Repr

/-- An operation started and not finished (R193), with the staging that it has yet to write, and what it has yet to read (R195). A RUN on the queue's head lacks `need` entries; `taken` are those it has read
(R213, R214). -/
structure Op where
  id      : Nat
  passage : Nat
  slot    : Nat
  kind    : OpKind
  writes  : List Span
  reads   : List Span := []
  need    : Nat := 0
  taken   : List FtqEntry := []
  deriving DecidableEq, Repr

/-- Samples a step's first attempt takes (R198, R367): host memory as the tables stood, the phase of the error-feedback windows it
was read through (R252), and the live registers. -/
structure Sample where
  mem  : Mem
  phase : Bool
  regs : Tab Word
  deriving DecidableEq, Repr

/-- The passage scheduler and the bundle issue unit (R193 to R211, R335). `abortDue` says that the attempt is to abort once every
operation started has finished (R206, R208, R333). `lastBundle` has the index of the last bundle issued and its slots (R171). -/
structure Psc where
  run        : Bool
  stepOn     : Bool
  committed  : Bool
  repeats    : Bool
  limited    : Bool
  attempt    : BitVec 8
  step       : BitVec 40
  sample     : Sample
  passages   : Tab Passage
  satisfied  : List (Nat × Nat)
  issuing    : Option Nat
  suspended  : Option Nat
  preempter  : Option Nat
  stopIssue  : Bool
  abortDue   : Bool
  conds      : Tab Bool
  window     : List Nat
  lastIssue  : Nat
  lastBundle : Option (Nat × List Nat)
  accepted   : List Slot
  ops        : List Op
  nextOp     : Nat
  onceStep   : List (Nat × Nat × Nat)
  onceAtt    : List (Nat × Nat × Nat)
  idle       : BitVec 64
  issued     : BitVec 64
  stalls     : Tab (BitVec 64)
  specRet    : BitVec 64
  undos      : BitVec 64
  deriving DecidableEq, Repr

/-- One tag of a weight tensor (R127). -/
structure TagState where
  live    : Bool
  buffer  : Nat
  tokens  : Nat
  pending : Int
  deriving DecidableEq, Repr

/-- Version state of one weight tensor (R126 to R133). `waiting` holds the operations (release, binding) that wait for the step
boundary (R133). `acquired` and `released` count the tokens that commits have issued and returned (R131). -/
structure TensorVer where
  cur      : Nat
  tags     : Tab TagState
  bound    : Tab Nat
  atStart  : Tab Nat
  updating : Bool
  waiting  : List (Bool × Nat)
  acquired : Nat
  released : Nat
  deriving DecidableEq, Repr

/-- Governor state of one layer (R156), with the rung pending from the last commit (R158). A fresh layer has not been
written since reset or the last swap to another image: it stands on its ladder's initial rung. -/
structure Layer where
  fresh   : Bool
  rung    : Nat
  lock    : Bool
  since   : Nat
  up      : List Nat
  down    : List Nat
  pending : Option Nat
  deriving DecidableEq, Repr

/-- Governor, statistics and calibration counters (R137 to R159). `outlier` holds the outlier side tensors of R150, by stream, row
and place in the stream's list (log 57). `sides` keeps, by address, where the tensor of a side table lay when the engine wrote it: place in
staging and row pitch (R141). -/
structure Gov where
  loc      : Tab StreamStat
  carry    : Tab StreamStat
  layers   : Tab Layer
  lockSmp  : Tab Word
  calib    : Tab Nat
  outlier  : Tab Nat
  sides    : Tab (Nat × Nat)
  logWidx  : Word
  deriving DecidableEq, Repr

/-- A stationary tile with the parameters of its pass (R56, R188). `cols` holds each cast column's stationary codes
in ascending k; `scale` the exponent sigma + delta of each column's segments (R141, R142). -/
structure Pass where
  uid      : Nat
  op       : Nat
  passage  : Nat
  ctx      : Nat
  fdesc    : Nat
  target   : Nat
  ow       : Bool
  kt       : Nat
  nt       : Nat
  cols     : List (List Nat)
  scale    : List (List Int)
  complete : Bool
  deriving DecidableEq, Repr

/-- One streamed row in the feeder queues of an array (R58): the codes of the pass's k range in ascending k, the
scale exponent of each segment, and the first cast row whose address left its partition (R65). -/
structure FeedRow where
  m     : Nat
  codes : List Nat
  scale : List Int
  bad   : Option Nat
  deriving DecidableEq, Repr

/-- Progress of one chunk word (R70 to R72, R85). -/
inductive ChunkStage where
  | latched | passed | failed | replayed
  deriving DecidableEq, Repr

/-- A chunk word in flight (R59, R80, R94). `lsb` is the exponent of its unit for a narrow pair, `scale` the exponent
R142 subtracts, `resid` the residue formed apart from the datapath (R70), `take` the ACLK of row entry its row takes (R67).
`live` says that its target was open when its burst issued (R91, R94). -/
structure Chunk where
  id      : ChunkId
  op      : Nat
  pass    : Nat
  target  : Nat
  row     : Int
  ow      : Bool
  wide    : Bool
  lsb     : Int
  scale   : Int
  word    : BitVec 96
  resid   : Nat
  korigin : Nat
  fails   : Nat
  take    : Nat
  live    : Bool
  stage   : ChunkStage
  deriving DecidableEq, Repr

/-- The last burst of an array (R58, R69, R336): operation, passage, ACLK of issue, first row, rows, ACLK of row entry that each row
takes, which of its rows have chunk words (a masked row is a bubble, R123), ACLK for which its static slot occupies row entry, and
rows that entered before it was cut. -/
structure LastBurst where
  op   : Nat
  passage : Nat
  at_  : Nat
  m    : Nat
  rows : Nat
  takes : List Nat
  full : List Bool
  slot : Nat
  done : Nat
  deriving DecidableEq, Repr

/-- What a stopped array keeps (R336, R337): in `saved` the chunk words that a resume
issues again with the operations they belong to, in `kept` and `next` the active and the loading tile at the stop, and in `cut` the
rest of the burst that was cut. -/
structure Susp where
  saved : List Chunk
  ops   : List Op
  kept  : Option Pass
  next  : Option Pass
  cut   : Option LastBurst
  deriving DecidableEq, Repr

/-- One logical array with its feeders (R52 to R61, R336). `cutFlag`, `entered` and `stopAt` record its last stop and the ACLK of its request, `saved` what it keeps for a
resume, `susp` the same while its passage is suspended (R335). -/
structure ArrayState where
  loading  : Option Pass
  active   : Option Pass
  retained : Option Pass
  feeder   : List FeedRow
  last     : Option LastBurst
  cutFlag  : Bool
  entered  : Nat
  stopped  : Bool
  stopAt   : Nat
  saved    : Susp
  susp     : Susp
  deriving DecidableEq, Repr

/-- State of an accumulation group or region (R89), the unfinished operations that hold it (R95), the passes counted in `promotions`
(R90), and the rows and columns of the weight matrix whose dW block it holds, 0 where none is known (R111). -/
structure Group where
  isOpen     : Bool
  shadow     : Bool
  rowBase    : Nat
  rowCount   : Nat
  anchor     : Int
  inflight   : Nat
  promotions : Nat
  saturated  : Nat
  floorLoss  : Nat
  progress   : Nat
  owner      : Nat
  busy       : List Nat
  counted    : List Nat
  wrows      : Nat
  wcols      : Nat
  deriving DecidableEq, Repr

/-- Arrays, chunk words, groups and totals (03, 04). Totals are keyed by array, sump row and column; an element not
listed is fresh (R89). `owners` lists the units of ownership outstanding: group or region, passage (R338). `satPass` and `boundPass` list the
passes of the step in which `sump_saturate` and `sump_bound` were raised (R86, R88); `spills` keeps, by place in staging, the extents of
the dW block that was spilled there (R111). -/
structure Sump where
  arrays : Tab ArrayState
  chunks : List Chunk
  groups : Tab Group
  totals : Tab Int
  owners : List (Nat × Nat)
  satPass : List Nat
  boundPass : List Nat
  spills : Tab (Nat × Nat)
  nextUid : Nat
  floorTot : Tab (BitVec 64)
  satTot   : Tab (BitVec 64)
  deriving DecidableEq, Repr

/-- One slab's vector engine (R212 to R214, R226). `tiles` holds each tile register's 256 × 256 FP32 values, +0 where none is listed
(log 21). `ownerWait` says that owner work waits for a lane group, `runWait` names the groups a RUN
waits for, `ownerLast` says which of the two was served last (R256). -/
structure Ve where
  groups : BitVec 4
  regs   : BitVec 6
  tiles  : Tab (List Nat)
  ftq    : List FtqEntry
  nz     : BitVec 64
  thr    : BitVec 64
  sat    : BitVec 64
  last   : BitVec 16
  ownerWait : Bool
  runWait   : BitVec 4
  ownerLast : Bool
  deriving DecidableEq, Repr

/-- A logical slot held in a partition (R279, R280): whether it is a loan, the passages that hold it, whether something
other than a passage releases it, and whether a prefetch holds it (R202). -/
structure Alloc where
  loan    : Bool
  holders : List Nat
  fixed   : Bool
  spec    : Bool
  deriving DecidableEq, Repr

/-- A waiting allocation of one stream (R280). -/
structure AllocReq where
  slab    : Nat
  part    : Nat
  slots   : List Nat
  passage : Nat
  spec    : Bool
  deriving DecidableEq, Repr

/-- Staging memory of every slab (R278 to R280). `zeroed` is the allocation epoch that self-test left, with every byte zero
(R315). -/
structure Staging where
  bytes : Mem
  alloc : Tab Alloc
  waits : List AllocReq
  epoch : Nat
  zeroed : Option Nat
  deriving DecidableEq, Repr

/-- What a transfer through the memory port serves; a `put` writes an owned tile to dest, or what a gather
brings, by the key of its tile, to a version's buffer (R256, R259); a `tel` writes a telemetry snapshot (R354). -/
inductive JobKind where
  | tel (index : Nat)
  | fetch (passage entry : Nat)
  | move (op : Nat)
  | image
  | put (tile : Option Nat)
  deriving DecidableEq, Repr

/-- Whose credits a request spends: the block-wide stream's, the speculative pool's, a partition's stream's (R202, R281). -/
inductive CreditPool where
  | block
  | spec
  | stream (slab part : Nat)
  deriving DecidableEq, Repr

/-- A transfer through the memory port (R176, R281, R285): host source or destination, staging place, and how far its
requests have been issued and completed. A host-to-host move reads into `buf` and then writes; a `put` has its bytes there. Its next
read and its next write have waited since `rdSince` and `wrSince`, numbers in the order of `Bmp.nextJob` (R282). -/
structure Job where
  id       : Nat
  kind     : JobKind
  reads    : Bool
  writes   : Bool
  src      : Nat
  dst      : Nat
  slab     : Nat
  part     : Nat
  off      : Nat
  len      : Nat
  rdIssued : Nat
  rdDone   : Nat
  wrIssued : Nat
  wrDone   : Nat
  rdSince  : Nat := 0
  wrSince  : Nat := 0
  buf      : Mem
  failed   : Bool
  spec     : Bool
  deriving DecidableEq, Repr

/-- An outstanding BMP request (R270 to R274). `pool` says whose stream credit it holds until its final response, none where a
prefetch's was returned before (R203, R281); one to be reissued has waited since `since` (R282). `start` is its first byte in host memory,
and `kept` what the engine has written to its bytes behind it, which comes after it (R275, log 131). -/
structure BmpReq where
  ch       : Nat
  tag      : Nat
  job      : Nat
  write    : Bool
  addr     : Nat
  beats    : Nat
  at_      : Nat
  len      : Nat
  attempts : Nat
  wleft    : Nat
  late     : Bool
  pool     : Option CreditPool
  since    : Nat
  start    : Nat := 0
  kept     : Mem := []
  deriving DecidableEq, Repr

/-- One memory channel (R271, R276); `counted` keeps the request credits its count of R320 gave it, `reqOut` and `wdataOut` the
credits spent that no pulse has returned (R338). -/
structure Chan where
  inService : Bool
  req       : Nat
  wdata     : Nat
  counted   : Nat
  reqOut    : Nat
  wdataOut  : Nat
  deriving DecidableEq, Repr

/-- The memory port (R268 to R282). -/
structure Bmp where
  chans     : Tab Chan
  jobs      : List Job
  nextJob   : Nat
  reqs      : List BmpReq
  redo      : List BmpReq
  lateRsp   : BitVec 64
  reclaimed : BitVec 64
  retired   : BitVec 64
  deriving DecidableEq, Repr

/-- A tile on the rope (R286, R287): who sent it, the slabs it still visits, and where it lands. -/
structure RopeTile where
  owner : JobKind
  left  : Nat
  dpart : Nat
  dslot : Nat
  bytes : List (Option Byte)
  last  : Bool
  deriving DecidableEq, Repr

/-- The rope (R286 to R290): hop buffers, tiles waiting to enter at each slab, holds. -/
structure Rope where
  hops    : Tab (List RopeTile)
  waiting : Tab (List RopeTile)
  holding : BitVec 8
  since   : Tab (BitVec 48)
  holds   : BitVec 64
  deriving DecidableEq, Repr

/-- A collective frame (R253); `reserved` says that a reserved field of it was not zero (R14). -/
structure Frame where
  typ     : Nat
  fver    : Nat
  group   : Nat
  attempt : Nat
  src     : Nat
  dst     : Nat
  step    : Nat
  pseq    : Nat
  tile    : Nat
  tensor  : Nat
  fmt     : Nat
  level   : Nat
  cfg     : Nat
  payload : List Byte
  reserved : Bool := false
  deriving DecidableEq, Repr

/-- A reduction window (R256). -/
structure Window where
  group  : Nat
  u      : Nat
  slab   : Nat
  part   : Nat
  slots  : List Nat
  count  : Nat
  elems  : Tab Int
  deriving DecidableEq, Repr

/-- The value of this rank's node of a dense tree at the level it has reached (R258). -/
structure DenseVal where
  group : Nat
  u     : Nat
  level : Nat
  vals  : List Word
  deriving DecidableEq, Repr

/-- One fragment of statistics (R260): first stream, its streams' quantities, lock CRC minimum and maximum. -/
structure Fragment where
  first   : Nat
  streams : List StreamStat
  lockMin : Word
  lockMax : Word
  deriving DecidableEq, Repr

/-- One collective channel (R264 to R267); `txOut` counts the transmit credits spent that no pulse has returned
(R338), `dest` is what `rlpN_tx_dest` shows of the last frame begun, `resp` the last response: none yet, or whether it was a nack. -/
structure RlpChan where
  retired : Bool
  tx      : Nat
  txOut   : Nat
  rx      : Nat
  queue   : List (Nat × Frame)
  beats   : Nat
  dest    : Nat
  resp    : Option Bool
  deriving DecidableEq, Repr

/-- The collective port (R245 to R267). `groups` lists the reduction groups that passed validation at step start;
`gathered`, `gwant` name gather tiles by group, tensor, tile and order, written and awaited; `gsent` keeps the gather
frames sent, with channel and operation. -/
structure Rlp where
  chans     : Tab RlpChan
  groups    : List Nat
  backlog   : List (Nat × Nat × Frame)
  lanes     : BitVec 32
  phase     : Bool
  stale     : BitVec 64
  reclaimed : BitVec 64
  expect    : Tab Nat
  sent      : Tab Nat
  fbuf      : List Frame
  windows   : List Window
  done      : List (Nat × Nat)
  dense     : List DenseVal
  gathered  : List (Nat × Nat × Nat × Nat)
  gwant     : List (Nat × Nat × Nat × Nat)
  gsent     : List (Nat × Nat × Frame)
  range     : Option (Nat × Nat)
  childFrag : Tab Fragment
  ownFrag   : Tab Fragment
  fragSent  : List Nat
  outFrag   : Tab Fragment
  abortSeen : Bool
  notice    : Bool
  noticeDue : Bool
  statsSent : Bool
  lost      : Bool
  deriving DecidableEq, Repr

/-- Where a failed update waits for its retry (R236, R334). -/
structure UpdFail where
  slot   : Slot
  slab   : Nat
  tensor : Nat
  brow   : Nat
  bcol   : Nat
  tile   : Nat
  deriving DecidableEq, Repr

/-- Units of a conserved quantity (R338). -/
structure Units where
  issued    : Nat
  returned  : Nat
  reclaimed : Nat
  deriving DecidableEq, Repr

/-- Faults and retirement (R327 to R344). `excused` lists the quantities that elements retired during the step held;
`updFrom` gives the operation of an update to be retried and the tile it goes on from (R334), `updVals` and `updSat` the values and
saturations of its tiles before (R226); `subPend` the retired arrays that their
slabs' spares replace at the next passage boundary (R77); `forced` the jobs and units with a forced slot to use, `bgLoads` the ACLK
until which a forced self-test holds an array's LOADs (R341). -/
structure Ras where
  leaky     : Tab Nat
  perm      : List Nat
  retired   : List Element
  spareFor  : Tab Nat
  subPend   : List Nat
  failed    : List Nat
  locPend   : List (Nat × Nat)
  retPend   : List Element
  restore   : Mem
  window    : List Byte
  audit     : Bool
  updFail   : Option UpdFail
  updFrom   : Option (Nat × Nat)
  updVals   : List (Nat × Nat)
  updSat    : Nat
  gatherBad : Bool
  lostWait  : Bool
  suspAt    : Nat
  reclaimed : BitVec 64
  units     : Tab Units
  excused   : List Nat
  forced    : List (Nat × Nat)
  bgLoads   : Tab Nat
  deriving DecidableEq, Repr

/-- Counters in the layout of the flowstone record (R345, R347, R348). -/
structure LifeCounts where
  globals : Tab (BitVec 64)
  stalls  : Tab (BitVec 64)
  faults  : Tab (BitVec 64)
  retires : Tab Word
  perms   : List Nat
  temps   : Tab Word
  ropes   : Tab Word
  deriving DecidableEq, Repr

/-- The flowstone record, its accumulators and buffers, telemetry and sensors (R345 to R354). -/
structure Life where
  rec_      : LifeCounts
  disc      : Bool
  saves     : Word
  saveStep  : BitVec 40
  acc       : LifeCounts
  stallBase : Tab (BitVec 64)
  saveBuf   : List Byte
  restore   : Mem
  ready     : Bool
  busy      : Bool
  telW      : Word
  snapIss   : BitVec 64
  snapStall : Tab (BitVec 64)
  snapDroop : Word
  sense     : Tab (BitVec 16)
  deriving DecidableEq, Repr

/-- Power (R355 to R358): throttle count, ramp floor, cap in force and next cap, estimate, waits. -/
structure Pwr where
  b       : Nat
  r       : Nat
  cap     : BitVec 10
  nextCap : BitVec 10
  est     : Nat
  waiting : Bool
  paused  : Bool
  pending : Bool
  began   : Nat := 0
  deriving DecidableEq, Repr

/-- The test wrapper (R394); `drive` names the contents of the boundary register that WS_EXTEST drives the output pins with (log 16). -/
structure Wrapper where
  wir   : BitVec 8
  shown : BitVec 8192
  mbist : BitVec 64
  drive : Option Nat
  deriving DecidableEq, Repr

end Sys2Proof.Machine
end

