-- ==== Sys2Proof/Machine/State.lean ====
section
/-! DEFINITION. The state of the block as plain data, its reset value, and the reasons a step can stop. -/

namespace Sys2Proof.Machine

/-- Why the block would stop with a fault. No command does: the engine answers every condition with an event, an
ended step or a failed start-up stage (R7, R324, R333), so there is no constructor. Safe. -/
inductive Fault where
  deriving DecidableEq, Repr

/-- Why a command has no meaning in the model. -/
inductive Refusal where
  /-- Raised only by an arm of `exec` whose command is not modelled yet. Safe. -/
  | notModelled (mnemonic : String)
  deriving DecidableEq, Repr

/-- The whole block (INVENTORY.md, State). -/
structure State where
  pending : List Instr
  freeCtr : Nat
  hostMem : Mem
  silicon : Silicon
  pins    : Pins
  boot    : Boot
  clock   : Clock
  regs    : RegFile
  reqs    : Tab ReqState
  evt     : EvtState
  intc    : IntState
  mbx     : Tab Mailbox
  cores   : Tab Core
  img     : Img
  psc     : Psc
  vers    : Tab TensorVer
  gov     : Gov
  sump    : Sump
  ves     : Tab Ve
  staging : Staging
  bmp     : Bmp
  rope    : Rope
  rlp     : Rlp
  ras     : Ras
  life    : Life
  pwr     : Pwr
  wrap    : Wrapper
  deriving DecidableEq, Repr

def ReqState.reset : ReqState :=
  { hold := none, record := 0, ridx := 0, copied := false, pval := 0, sval := 0, sseq := 0, sready := false,
    smbx := 0, answer := 0 }

def Mailbox.reset : Mailbox := { value := 0, seq := 0, ready := false }

/-- A core held in reset (R293). -/
def Core.reset : Core :=
  { hold := true, wfi := false, npop := false, pc := 0, x := [], mie := false, mpie := false, meie := false,
    mtvec := 0, mscratch := 0, mepc := 0, mcause := 0, mtval := 0, mcycle := 0, minstret := 0, ztimeh := none,
    cnt := [], scalar := [], notify := [], imem := [], dmem := [] }

def StreamStat.zero : StreamStat :=
  { bins := [], clipped := 0, under := 0, nonfin := 0, tiles := 0, jit := 0, amax := 0 }

def Passage.reset : Passage :=
  { status := .notStarted, spec := false, stuck := false, unbound := false, nonfin := [], readyAt := none, ptr := 0,
    bundle := 0, gap := 0, loadTill := 0, rowTill := 0, rest := [], fetchTill := 0 }

def TagState.reset : TagState := { live := false, buffer := 0, tokens := 0, pending := 0 }

/-- Tag 0 current and live in buffer 0, no tokens, every binding clear (R127). -/
def TensorVer.reset : TensorVer :=
  { cur := 0, tags := [(0, { live := true, buffer := 0, tokens := 0, pending := 0 })], bound := [], atStart := [],
    updating := false, waiting := [], acquired := 0, released := 0 }

def Layer.reset : Layer :=
  { fresh := true, rung := 0, lock := false, since := 0, up := [0, 0, 0], down := [0, 0, 0], pending := none }

def Susp.none : Susp := { saved := [], ops := [], kept := Option.none, next := Option.none, cut := Option.none }

def ArrayState.reset : ArrayState :=
  { loading := none, active := none, retained := none, feeder := [], last := none, cutFlag := false, entered := 0,
    stopped := false, stopAt := 0, saved := Susp.none, susp := Susp.none }

def Group.closed : Group :=
  { isOpen := false, shadow := false, rowBase := 0, rowCount := 0, anchor := 0, inflight := 0, promotions := 0,
    saturated := 0, floorLoss := 0, progress := 0, owner := 0, busy := [], counted := [], wrows := 0, wcols := 0 }

def Ve.reset : Ve := { groups := 0, regs := 0, tiles := [], ftq := [], nz := 0, thr := 0, sat := 0, last := 0, ownerWait := false, runWait := 0, ownerLast := false }

def Chan.reset : Chan := { inService := false, req := 0, wdata := 0, counted := 0, reqOut := 0, wdataOut := 0 }

def RlpChan.reset : RlpChan := { retired := false, tx := 0, txOut := 0, rx := 0, queue := [], beats := 0, dest := 0, resp := none }

def LifeCounts.zero : LifeCounts :=
  { globals := [], stalls := [], faults := [], retires := [], perms := [], temps := [], ropes := [] }

def Psc.reset : Psc :=
  { run := false, stepOn := false, committed := false, repeats := false, limited := false, attempt := 0, step := 0,
    sample := { mem := [], phase := false, regs := [] }, passages := [], satisfied := [], issuing := none, suspended := none,
    preempter := none, stopIssue := false, abortDue := false, conds := [], window := [], lastIssue := 0, lastBundle := none, accepted := [],
    ops := [], nextOp := 0, onceStep := [], onceAtt := [], idle := 0, issued := 0, stalls := [], specRet := 0,
    undos := 0 }

/-- The block with `rst_n` low, stage 0x0, on given silicon (R313): every record, counter, plane, key and register
at its reset value. What the surroundings hold (host memory, pins) and the queue are arguments. DESIGN CHOICE: the lock sample that a
commit before the first step boundary uses is all zero (R157, log 133). -/
def State.atReset (si : Silicon) (pi : Pins) (mem : Mem) (cores : Tab Core) (free : Nat) (queue : List Instr) :
    State :=
  { pending := queue, freeCtr := free, hostMem := mem, silicon := si, pins := pi,
    boot := { stage := 0, fail := 0, spareRestored := false, lifeRestored := false, spareWritten := false,
              lifeWritten := false, testHold := false, interval := false, excess := 0, rlpSeen := none, bmpVer := 0,
              rlpVer := 0, credits := 0, chan := 0, lanes := 0, coreEpoch := 0 },
    clock := { ts := 0, epoch := 0, aclk := 0 },
    regs := { live := [], seen := [], shadow := [], applied := 0, pin := false, applyCnt := 0 },
    reqs := [],
    evt := { ring := [], head := 0, tail := 0, overflow := 0, queues := [], seq := [] },
    intc := { pend := 0, act := 0, atgt := [], level := 0, pulse := 0, held := [], modr := 0, grace := [], sw := 0 },
    mbx := [], cores := cores,
    img := { live := none, shadow := none, state := 0, code := 0, sect := 0, swapPending := false, loading := none,
             keys := [], variant := 0, staged := none, swapTo := none },
    psc := Psc.reset, vers := [],
    gov := { loc := [], carry := [], layers := [], lockSmp := [], calib := [], outlier := [], sides := [], logWidx := 0 },
    sump := { arrays := [], chunks := [], groups := [], totals := [], owners := [], satPass := [], boundPass := [], spills := [], nextUid := 0, floorTot := [], satTot := [] },
    ves := [],
    staging := { bytes := [], alloc := [], waits := [], epoch := 0, zeroed := none },
    bmp := { chans := [], jobs := [], nextJob := 0, reqs := [], redo := [], lateRsp := 0, reclaimed := 0, retired := 0 },
    rope := { hops := [], waiting := [], holding := 0, since := [], holds := 0 },
    rlp := { chans := [], groups := [], backlog := [], lanes := 0, phase := false, stale := 0, reclaimed := 0, expect := [],
             sent := [], fbuf := [], windows := [], done := [], dense := [], gathered := [], gwant := [], gsent := [], range := none,
             childFrag := [], ownFrag := [], fragSent := [], outFrag := [], abortSeen := false, notice := false,
             noticeDue := false, statsSent := false, lost := false },
    ras := { leaky := [], perm := [], retired := [], spareFor := [], subPend := [], failed := [], locPend := [], retPend := [],
             restore := [], window := [], audit := false, updFail := none, updFrom := none, updVals := [], updSat := 0, gatherBad := false, lostWait := false,
             suspAt := 0, reclaimed := 0, units := [], excused := [], forced := [], bgLoads := [] },
    life := { rec_ := LifeCounts.zero, disc := false, saves := 0, saveStep := 0, acc := LifeCounts.zero,
              stallBase := [], saveBuf := [], restore := [], ready := false, busy := false, telW := 0, snapIss := 0,
              snapStall := [], snapDroop := 0, sense := [] },
    pwr := { b := 0, r := 0, cap := 0, nextCap := 0, est := 0, waiting := false, paused := false, pending := false },
    wrap := { wir := 0, shown := 0, mbist := 0, drive := none } }

/-- The machine right after reset: a Z64 block with 512 lanes (log 4), `rst_n` low, nothing listed in host memory,
no command waiting. -/
def State.reset : State :=
  State.atReset
    { cls := .z64, lanes := 512, rev := 0, dieId := 0, fuseMap := [], fuseBits := 0 }
    { rstN := false, testEn := false, applyOut := false, droopN := true, capStb := false,
      rampReq := false, rampAck := false, irqIdle := 0, cap := 0, laneUp := 0, rlpHost := 0, chanUp := 0 }
    [] [] 0 []

end Sys2Proof.Machine
end

