-- ==== Sys2Proof/Machine/Ops.lean ====
section
/-! DEFINITION. The named operations that every unit shares: bytes of host memory and staging, live registers,
free values, class figures, raising events, and counting. -/

namespace Sys2Proof.Machine

/-- The answer of a meaning that always completes. -/
abbrev Result := Host.Outcome State Fault Refusal

/-! Class figures (R3, R16, R53). -/

def Cls.slabs : Cls → Nat
  | .z8 => 1 | .z16 => 2 | .z32 => 4 | .z64 => 8
/-- Logical arrays, which is also the class code of R78. -/
def Cls.arrays (c : Cls) : Nat := 8 * c.slabs
/-- Physical arrays per slab: Z64 has one spare (R16). -/
def Cls.perSlab : Cls → Nat
  | .z64 => 9 | _ => 8
def Cls.physArrays (c : Cls) : Nat := c.perSlab * c.slabs
/-- Spare rows, and as many spare columns, of a physical array (R53). -/
def Cls.spares : Cls → Nat
  | .z8 => 2 | .z16 => 4 | .z32 => 6 | .z64 => 8
/-- Regions take the place of groups (R92). -/
def Cls.regions : Cls → Bool
  | .z64 => true | _ => false

def State.slabs (s : State) : Nat := s.silicon.cls.slabs
def State.isZ64 (s : State) : Bool := s.silicon.cls.regions

/-! Free values. -/

/-- Advance the counter that selects the next free value. -/
def bumpFree (s : State) : State := { s with freeCtr := s.freeCtr + 1 }

/-! Host memory (R268), a snapshot of it, and byte strings from either. -/

/-- A byte of a memory whose unlisted bytes are the host's own (log 2). -/
def hostByteOf (m : Mem) (a : Nat) : Byte := (m.byte? a).getD (Config.hostByte a)

/-- `n` bytes of host memory from address `a`. -/
def hostBytesOf (m : Mem) (a n : Nat) : List Byte := (List.range n).map (fun i => hostByteOf m (a + i))

def hostNat (m : Mem) (a n : Nat) : Nat := leNat (hostBytesOf m a n)

/-- Write bytes to host memory. -/
def writeHost (s : State) (a : Nat) (bs : List Byte) : State := { s with hostMem := s.hostMem.setBytes a bs }

/-- Lay bytes over host memory again. -/
def layHost (s : State) (k : Mem) : State := { s with hostMem := s.hostMem.lay k }

/-! Staging (R278): bytes keyed by slab, partition and offset. -/

/-- The key of a byte of a partition's window. -/
def stKey (slab part off : Nat) : Nat := (slab * 32 + part) * 2 ^ 26 + off

/-- The byte of staging at a key; unspecified until written, but zero while no slot has been released since self-test (R279, R315). -/
def stByte (s : State) (key : Nat) : Byte :=
  (s.staging.bytes.byte? key).getD
    (if s.staging.zeroed = some s.staging.epoch then 0 else Config.staleByte s.staging.epoch key)

/-- Write bytes of staging. -/
def stWrite (s : State) (key : Nat) (bs : List Byte) : State :=
  { s with staging := { s.staging with bytes := s.staging.bytes.setBytes key bs } }

/-! Live registers, shadows and the samples of a step (R10, R11, R367). -/

/-- Reset values of the plain registers, by address; every other plain register resets to zero (R372 to R386, R328,
R359). -/
def regReset (a : Nat) : Word :=
  if a = 0x200000 then 1048576
  else if a = 0x210004 then 1
  else if a = 0x210008 then 1000000
  else if a = 0x21000C then 1000000
  else if a = 0x280000 then 0x03E80020
  else if a = 0x280004 then 0x03E80040
  else if a = 0x280008 then 0xEA600004
  else if a = 0x28000C then 0xEA600010
  else if a = 0x280010 then 0xEA600010
  else if a = 0x290018 then 0x00040000
  else if a = 0x2A0004 then 0x000C0100
  else if a = 0x2A0008 then 850000
  else if 0x240000 ≤ a ∧ a < 0x240400 then 0x00010000
  else 0

def liveReg (s : State) (a : Nat) : Word := Tab.get (regReset a) s.regs.live a
def shadowReg (s : State) (a : Nat) : Word := Tab.get (regReset a) s.regs.shadow a
def setLive (s : State) (a : Nat) (v : Word) : State := { s with regs := { s.regs with live := s.regs.live.put a v } }
def setShadow (s : State) (a : Nat) (v : Word) : State :=
  { s with regs := { s.regs with shadow := s.regs.shadow.put a v } }

/-- A live 64-bit register pair as a number. -/
def livePair (s : State) (a : Nat) : Nat := (liveReg s a).toNat + 2 ^ 32 * (liveReg s (a + 4)).toNat

/-! Error-feedback windows (R252). -/

def efBase (s : State) (wr : Bool) : Nat := livePair s (if wr then 0x210028 else 0x210020) % 2 ^ 52
def efSize (s : State) : Nat := livePair s 0x210040
def efBuf (s : State) (one : Bool) : Nat := livePair s (if one then 0x210038 else 0x210030) % 2 ^ 52
/-- Where a request's bytes lie in a phase: mapped through a window; none where they straddle its edge. -/
def mapIn (s : State) (phase : Bool) (a n : Nat) : Option Nat :=
  let win := fun (b : Nat) => decide (b ≤ a) && decide (a + n ≤ b + efSize s)
  let touch := fun (b : Nat) => decide (a < b + efSize s) && decide (b < a + n)
  let rd := efBase s false
  let wr := efBase s true
  if efSize s = 0 then some a
  else if win rd then some (efBuf s phase + (a - rd))
  else if win wr then some (efBuf s (!phase) + (a - wr))
  else if touch rd || touch wr then none else some a
def mapAddr (s : State) (a n : Nat) : Option Nat := mapIn s s.rlp.phase a n
/-- Bytes of a host memory where a request's bytes lie at `b`. DESIGN CHOICE: those of a table read that straddles a window's edge, and so
is not issued, are free (R252, log 19). -/
def mappedBytes (m : Mem) (a n : Nat) : Option Nat → List Byte
  | some b => hostBytesOf m b n
  | none => (List.range n).map (fun i => Config.straddledByte (a + i))
/-- Bytes that the engine reads of host memory. -/
def portBytes (s : State) (a n : Nat) : List Byte := mappedBytes s.hostMem a n (mapAddr s a n)
def portNat (s : State) (a n : Nat) : Nat := leNat (portBytes s a n)

/-- A register as the step sampled it (R367). -/
def smpReg (s : State) (a : Nat) : Nat := (Tab.get (regReset a) s.psc.sample.regs a).toNat
def smpPair (s : State) (a : Nat) : Nat := smpReg s a + 2 ^ 32 * smpReg s (a + 4)
/-- Bytes and a number read from the step's copy of host memory (R198). -/
def smpBytes (s : State) (a n : Nat) : List Byte :=
  mappedBytes s.psc.sample.mem a n (mapIn s s.psc.sample.phase a n)
def smpNat (s : State) (a n : Nat) : Nat := leNat (smpBytes s a n)
/-- Bytes of an input that software must leave alone within a step: the step's copy, and free where host memory no longer holds the same
(R7, R18, R121, R136, log 8). -/
def inBytes (s : State) (a n : Nat) : List Byte :=
  match mapIn s s.psc.sample.phase a n with
  | none => mappedBytes s.hostMem a n none
  | some b => (List.range n).map (fun i =>
      let x := hostByteOf s.psc.sample.mem (b + i)
      let y := hostByteOf s.hostMem (b + i)
      if x = y then x else Config.changedByte (b + i) x y)
def inNat (s : State) (a n : Nat) : Nat := leNat (inBytes s a n)

/-- The lock of R370. -/
def locked (s : State) : Bool := (liveReg s 0x020008).getLsbD 0

/-! Parts of the state, by key. -/

def getCore (s : State) (n : Nat) : Core := Tab.get Core.reset s.cores n
def setCore (s : State) (n : Nat) (c : Core) : State := { s with cores := s.cores.put n c }
def getReq (s : State) (r : Req) : ReqState := Tab.get ReqState.reset s.reqs r.val
def setReq (s : State) (r : Req) (q : ReqState) : State := { s with reqs := s.reqs.put r.val q }
def getMbx (s : State) (n : Nat) : Mailbox := Tab.get Mailbox.reset s.mbx n
def setMbx (s : State) (n : Nat) (m : Mailbox) : State := { s with mbx := s.mbx.put n m }
def getPassage (s : State) (p : Nat) : Passage := Tab.get Passage.reset s.psc.passages p
def setPassage (s : State) (p : Nat) (x : Passage) : State :=
  { s with psc := { s.psc with passages := s.psc.passages.put p x } }
def getVer (s : State) (t : Nat) : TensorVer := Tab.get TensorVer.reset s.vers t
def setVer (s : State) (t : Nat) (v : TensorVer) : State := { s with vers := s.vers.put t v }
def getLayer (s : State) (l : Nat) : Layer := Tab.get Layer.reset s.gov.layers l
def setLayer (s : State) (l : Nat) (x : Layer) : State := { s with gov := { s.gov with layers := s.gov.layers.put l x } }
def getArray (s : State) (a : Nat) : ArrayState := Tab.get ArrayState.reset s.sump.arrays a
def setArray (s : State) (a : Nat) (x : ArrayState) : State :=
  { s with sump := { s.sump with arrays := s.sump.arrays.put a x } }
def getVe (s : State) (n : Nat) : Ve := Tab.get Ve.reset s.ves n
/-- The entries of a finished-tile queue (R213). -/
def Ve.entries (v : Ve) : List FtqEntry := v.ftq.filter (fun e => !e.masked)
def setVe (s : State) (n : Nat) (v : Ve) : State := { s with ves := s.ves.put n v }
def getChan (s : State) (c : Nat) : Chan := Tab.get Chan.reset s.bmp.chans c
def setChan (s : State) (c : Nat) (x : Chan) : State := { s with bmp := { s.bmp with chans := s.bmp.chans.put c x } }
def getRlp (s : State) (c : Nat) : RlpChan := Tab.get RlpChan.reset s.rlp.chans c
def setRlp (s : State) (c : Nat) (x : RlpChan) : State := { s with rlp := { s.rlp with chans := s.rlp.chans.put c x } }

/-- Group or region `g` of logical array `a`. -/
def groupKey (a g : Nat) : Nat := a * 64 + g
def getGroup (s : State) (k : Nat) : Group := Tab.get Group.closed s.sump.groups k
def setGroup (s : State) (k : Nat) (g : Group) : State :=
  { s with sump := { s.sump with groups := s.sump.groups.put k g } }

/-- The key of a total: logical array, sump row, sump column (R88). -/
def totKey (a row col : Nat) : Nat := (a * 384 + row) * 256 + col
/-- A total; a fresh element reads as zero (R89). -/
def getTotal (s : State) (k : Nat) : Int := Tab.get 0 s.sump.totals k
def setTotal (s : State) (k : Nat) (v : Int) : State :=
  { s with sump := { s.sump with totals := s.sump.totals.put k v } }

/-! Flowstone accumulators (R350) and status counters. -/

def LifeCounts.addGlobal (c : LifeCounts) (i n : Nat) : LifeCounts :=
  { c with globals := c.globals.upd 0 i (fun x => satAdd x n) }
/-- Count a happening in the unit accumulators (R347, R350). -/
def countLife (s : State) (i n : Nat) : State := { s with life := { s.life with acc := s.life.acc.addGlobal i n } }

/-- `n` ACLK pass: they count towards the time with run set, or as idle (R211, R347). -/
def passAclk (s : State) (n : Nat) : State :=
  let t := { s with clock := { s.clock with aclk := s.clock.aclk + n } }
  if s.psc.run then countLife t 1 n else { t with psc := { t.psc with idle := satAdd t.psc.idle n } }

/-! Interrupt pulses (R299, R301). -/

/-- The sense field of a source: 0 level, 1 rising, 2 falling, 3 both (R300). -/
def intSense (s : State) (n : Nat) : Nat := fld (liveReg s (0x240000 + 4 * n)).toNat 17 16

/-- A one-CCLK pulse of a source's signal: either edge it has sets pend; with level sensing pend follows it for that CCLK (R301,
log 20). -/
def intPulse (s : State) (n : Nat) : State :=
  if intSense s n = 0 then { s with intc := { s.intc with pulse := setBit s.intc.pulse n true } }
  else { s with intc := { s.intc with pend := setBit s.intc.pend n true } }

/-- Sources that are levels: notify queues, the log's watermark, software bits (R299). -/
def levelNow (s : State) : BitVec 256 :=
  let q := (List.range 4).foldl (fun (b : BitVec 256) n => setBit b (48 + n) (!(getCore s n).notify.isEmpty)) 0
  let w := fld (liveReg s 0x250010).toNat 15 0
  setBit q 52 (w != 0 && decide (w ≤ (s.evt.head - s.evt.tail).toNat)) ||| (s.intc.sw.setWidth 256 <<< 64)
/-- An edge of a level source sets pend where its sensing chooses that edge (R301). -/
def levelEdge (now : BitVec 256) (s : State) (n : Nat) : State :=
  let k := intSense s n
  if k = 3 ∨ (k = 1 ∧ now.getLsbD n) ∨ (k = 2 ∧ !now.getLsbD n) then
    { s with intc := { s.intc with pend := setBit s.intc.pend n true } } else s
/-- Compare the level sources with what they were, and latch the edges. -/
def sampleLevels (s : State) : State :=
  let now := levelNow s
  let diff := s.intc.level ^^^ now
  if diff = 0 then s else
  ((List.range 256).filter (fun n => diff.getLsbD n)).foldl (levelEdge now) { s with intc := { s.intc with level := now } }

/-! Conserved quantities (R338), numbered by row order: 0 memory credits, 1 RLP credits, 2 staging slots, 3 frame
buffers, 4 rope tokens, 5 FTQ entries, 6 version tokens, 7 sump ownership, 8 event log slots. -/

def Units.none : Units := { issued := 0, returned := 0, reclaimed := 0 }
def getUnits (s : State) (q : Nat) : Units := Tab.get Units.none s.ras.units q
def setUnits (s : State) (q : Nat) (u : Units) : State := { s with ras := { s.ras with units := s.ras.units.put q u } }
/-- `n` units of a quantity are issued, returned, or reclaimed by a retirement. -/
def unitOut (s : State) (q n : Nat) : State := let u := getUnits s q; setUnits s q { u with issued := u.issued + n }
def unitBack (s : State) (q n : Nat) : State := let u := getUnits s q; setUnits s q { u with returned := u.returned + n }
def unitReclaim (s : State) (q n : Nat) : State :=
  let u := getUnits s q; setUnits s q { u with reclaimed := u.reclaimed + n }

/-! Events (R305, R308, R309). -/

/-- Pack payload fields from bit 23 downward, each at its width; a field that does not fit keeps its low bits in the
bits that remain (R308). -/
def packAt : Nat → List (Nat × Nat) → Nat
  | _, [] => 0
  | left, (w, v) :: rest =>
    let u := min w left
    (v % 2 ^ u) * 2 ^ (left - u) + packAt (left - u) rest
def pack (fields : List (Nat × Nat)) : BitVec 24 := BitVec.ofNat 24 (packAt 24 fields)

/-- Count `n` events lost: the overflow count rises and source 53 pulses (R299, R309). -/
def loseEvents (s : State) (n : Nat) : State :=
  countLife (intPulse { s with evt := { s.evt with overflow := satAdd s.evt.overflow n } } 53) 13 n

/-- Raise an event: the source numbers the record; with 8 records waiting the record is lost and counted (R305,
R309). -/
def raise (s : State) (source code : Nat) (payload : BitVec 24) : State :=
  let n := Tab.get (0 : Word) s.evt.seq source
  let q := Tab.get [] s.evt.queues source
  let r : EvRec := { source := BitVec.ofNat 8 source, seq := n, time := s.clock.ts, code := BitVec.ofNat 16 code,
                     payload := payload }
  let s := unitOut { s with evt := { s.evt with seq := s.evt.seq.put source (n + 1) } } 8 1
  if q.length < 8 then { s with evt := { s.evt with queues := s.evt.queues.put source (q ++ [r]) } }
  else unitBack (loseEvents s 1) 8 1

/-- An access that is under way keeps what is written to its bytes behind it. -/
def BmpReq.behind (r : BmpReq) (a : Nat) (bs : List Byte) : BmpReq :=
  let mine := ((List.range bs.length).zip bs).filter (fun x => decide (r.addr ≤ a + x.1) && decide (a + x.1 < r.addr + 64 * r.beats))
  { r with kept := mine.foldl (fun m x => Mem.setByte m (a + x.1) x.2) r.kept }
/-- Write host memory behind every access under way: what one of them brings later does not undo it (R275, log 131). -/
def writeBehind (s : State) (a : Nat) (bs : List Byte) : State :=
  { writeHost s a bs with bmp := { s.bmp with reqs := s.bmp.reqs.map (fun r => r.behind a bs), redo := s.bmp.redo.map (fun r => r.behind a bs) } }
/-- Write host memory through the windows; a write that straddles a window's edge is not issued (R252, log 19). -/
def portWrite (s : State) (a : Nat) (bs : List Byte) : State :=
  match mapAddr s a bs.length with
  | some b => writeBehind s b bs
  | none => raise s 4 Ev.descriptorBound (BitVec.ofNat 24 (2 ^ 20))

/-- Raise an event at most once per step (scope 0) or once per attempt for a passage or RUN. -/
def raiseOnceStep (s : State) (source code key : Nat) (payload : BitVec 24) : State :=
  if s.psc.onceStep.contains (0, code, key) then s
  else raise { s with psc := { s.psc with onceStep := (0, code, key) :: s.psc.onceStep } } source code payload
/-- `descriptor_bound` for a table read that straddles a window's edge, once per step and address (R252, log 19). -/
def noteTable (s : State) (a n : Nat) : State :=
  if (mapAddr s a n).isNone then raiseOnceStep s 4 Ev.descriptorBound (2 ^ 60 + a) (BitVec.ofNat 24 (2 ^ 20)) else s
def raiseOncePassage (s : State) (source code key : Nat) (payload : BitVec 24) : State :=
  if s.psc.onceAtt.contains (0, code, key) then s
  else raise { s with psc := { s.psc with onceAtt := (0, code, key) :: s.psc.onceAtt } } source code payload

/-- Raise an event whose rule names no payload field: its payload is open (R307, R308, log 32). -/
def raiseOpen (s : State) (source code : Nat) : State := bumpFree (raise s source code (Config.openPayload code s.freeCtr))
/-- The same, at most once per step, or once per attempt for a passage or RUN. -/
def raiseOpenStep (s : State) (source code key : Nat) : State :=
  bumpFree (raiseOnceStep s source code key (Config.openPayload code s.freeCtr))
def raiseOpenPassage (s : State) (source code key : Nat) : State :=
  bumpFree (raiseOncePassage s source code key (Config.openPayload code s.freeCtr))

/-- `reserved_write` of a register access by a requester at a byte address (R12, R308). -/
def reservedWrite (s : State) (req : Req) (addr : Nat) : State :=
  raise s 0 0x0100 (pack [(3, req.val), (21, addr / 4)])
/-- `reserved_write` of one structure read by a unit (R14, R306, R308). -/
def reservedRead (s : State) (source addr : Nat) : State :=
  raise s source 0x0100 (pack [(3, 7), (21, addr / 4)])

/-! Stall accounting (R209). -/

def countStall (s : State) (cause n : Nat) : State :=
  { s with psc := { s.psc with stalls := s.psc.stalls.upd 0 cause (fun c => satAdd c n) } }

/-! Accesses through the control port (R361 to R364). -/

/-- An access by a requester ends the pairing of its held upper word (R363), and a write is answered with zero (R387, R388). -/
def dropHold (s : State) (req : Req) : State :=
  let q := getReq s req
  if q.hold.isNone && q.answer == 0 then s else setReq s req { q with hold := none, answer := 0 }
/-- A register access; while `rst_n` is low none takes effect (R313, log 10). -/
def portAccess (s : State) (req : Req) (f : State → State) : State := if s.boot.stage = 0 then s else f (dropHold s req)

/-! Operations started and unfinished (R193). -/

def addOp (s : State) (o : Op) : State := { s with psc := { s.psc with ops := s.psc.ops ++ [o] } }
def finishOp (s : State) (id : Nat) : State := { s with psc := { s.psc with ops := s.psc.ops.filter (fun o => o.id != id) } }
def findOp (s : State) (id : Nat) : Option Op := s.psc.ops.find? (fun o => o.id == id)
def setOpKind (s : State) (id : Nat) (k : OpKind) : State :=
  { s with psc := { s.psc with ops := s.psc.ops.map (fun o => if o.id = id then { o with kind := k } else o) } }

/-- Change an operation. -/
def setOp (s : State) (id : Nat) (f : Op → Op) : State :=
  { s with psc := { s.psc with ops := s.psc.ops.map (fun o => if o.id = id then f o else o) } }

/-- Take the first accepted slot when it is the named one: slots of a bundle act in ascending index (log 9). -/
def takeSlot (s : State) (p : Slot → Bool) : Option (Slot × State) :=
  match s.psc.accepted with
  | sl :: rest => if p sl then some (sl, { s with psc := { s.psc with accepted := rest } }) else none
  | [] => none

/-- The opcode of a slot word (R187). -/
def Slot.opcode (sl : Slot) : Nat := fld sl.word.toNat 63 60
/-- Bits of a slot word. -/
def Slot.bits (sl : Slot) (hi lo : Nat) : Nat := fld sl.word.toNat hi lo
/-- The descriptor a slot names. -/
def Slot.descIndex (sl : Slot) : Nat := sl.bits 55 40

end Sys2Proof.Machine
end

