-- ==== Sys2Proof/Machine/Records.lean ====
section
/-! DEFINITION. The field-spare record (R78, R79) and the flowstone record (R345 to R352) as byte strings, spares left
of an array, and retiring an element. -/

namespace Sys2Proof.Machine

/-! Spares (R53, R74, R75). -/

/-- Elements of one kind of an array in a list. -/
def countOf (l : List Element) (array : Nat) (isCol : Bool) : Nat :=
  (l.filter (fun e => e.array == array && e.isCol == isCol)).length
/-- Field spares of a kind an array has after the fuses, and those left. -/
def fieldSpares (s : State) (array : Nat) (isCol : Bool) : Nat :=
  s.silicon.cls.spares - countOf s.silicon.fuseMap array isCol
def sparesLeft (s : State) (array : Nat) (isCol : Bool) : Nat :=
  fieldSpares s array isCol - countOf s.ras.retired array isCol
/-- Physical rows, and as many columns, of an array (R53). -/
def physSize (s : State) : Nat := 256 + s.silicon.cls.spares

/-- Append a retirement to the field-spare record (R75, R318, R331). -/
def retireElement (s : State) (e : Element) : State :=
  let ras := { s.ras with retired := s.ras.retired ++ [e] }
  let life := { s.life with acc := { s.life.acc with
    retires := s.life.acc.retires.upd 0 (98 + e.array) (fun x => satAdd x 1) } }
  { s with ras := ras, life := life }

/-- Slab of a physical array, and its position in the slab. -/
def physSlab (s : State) (array : Nat) : Nat := array / s.silicon.cls.perSlab
def physPos (s : State) (array : Nat) : Nat := array % s.silicon.cls.perSlab

/-- The slab's spare array has taken the place of a physical array. -/
def isReplaced (s : State) (array : Nat) : Bool :=
  s.isZ64 && List.lookup (physSlab s array) s.ras.spareFor == some (physPos s array)
/-- An array's own retirement counts in its element entry (R348). -/
def countRetired (l : Life) (array : Nat) : Life :=
  { l with acc := { l.acc with retires := l.acc.retires.upd 0 (98 + array) (fun x => satAdd x 1) } }
/-- The slab's spare array is to take the place of a physical array, at the next passage boundary (R77). -/
def substitute (s : State) (array : Nat) : State :=
  { s with ras := { s.ras with subPend := s.ras.subPend ++ [array] }, life := countRetired s.life array }
/-- At a passage boundary the spare arrays take the places of the arrays retired before it (R77). -/
def placeSpares (s : State) : State :=
  { s with ras := { s.ras with subPend := [],
                               spareFor := s.ras.subPend.foldl (fun t p => t.put (physSlab s p) (physPos s p)) s.ras.spareFor } }
/-- The slab of an array has a spare array that is free and is not that array (R77, R318). -/
def spareFree (s : State) (array : Nat) : Bool :=
  s.isZ64 && (List.lookup (physSlab s array) s.ras.spareFor).isNone && physPos s array != 8 &&
    !s.ras.subPend.any (fun p => physSlab s p == physSlab s array)

/-! The field-spare record (R78). -/

def spareLen (s : State) : Nat :=
  16 + 32 * s.silicon.cls.physArrays + 16 + 4

/-- Eight u16 entries of the retirements of a kind, in the order they were appended. -/
def spareEntries (s : State) (array : Nat) (isCol : Bool) : List Byte :=
  let es := (s.ras.retired.filter (fun e => e.array == array && e.isCol == isCol)).map (·.index)
  (List.range 8).flatMap (fun i => match es[i]? with
    | some x => leBytes 2 (2 ^ 15 + x % 512)
    | none => leBytes 2 0)

/-- The live record with its CRC. -/
def spareRecord (s : State) : List Byte :=
  let head := leBytes 2 1 ++ leBytes 1 s.silicon.cls.arrays ++ [0] ++ leBytes 2 s.silicon.cls.physArrays ++ [0, 0] ++
    leBytes 8 s.silicon.dieId.toNat
  let arrays := (List.range s.silicon.cls.physArrays).flatMap (fun a => spareEntries s a false ++ spareEntries s a true)
  let tail := if s.isZ64 then (List.range 8).flatMap (fun x =>
      match List.lookup x s.ras.spareFor with
      | some v => leBytes 2 (2 ^ 15 + v % 8)
      | none => leBytes 2 0) else List.replicate 16 0
  let body := head ++ arrays ++ tail
  body ++ leBytes 4 (crc32c body).toNat

/-- The valid row or column entries of a record. -/
def parseSpares (s : State) (b : List Byte) : List Element :=
  (List.range s.silicon.cls.physArrays).flatMap (fun a =>
    (List.range 16).filterMap (fun i =>
      let w := fieldAt b (16 + 32 * a + 2 * i) 2
      if bitAt w 15 then some { array := a, isCol := decide (8 ≤ i), index := fld w 8 0 } else none))
/-- An entry that an accepted record has ignored: fuse-retired or out of physical range (R79). -/
def spareIgnored (s : State) (e : Element) : Bool := s.silicon.fuseMap.contains e || decide (physSize s ≤ e.index)

/-- The record passes R79. DESIGN CHOICE: an entry that a record holds twice counts twice against the field spares; `spareApply` applies it
once (log 107). DESIGN CHOICE: an entry that would be ignored counts against no spare (log 130). -/
def spareAccept (s : State) (b : List Byte) : Bool :=
  let n := spareLen s
  let np := s.silicon.cls.physArrays
  let es := (parseSpares s b).filter (fun e => !spareIgnored s e)
  fieldAt b (n - 4) 4 == (crc32c (b.take (n - 4))).toNat && fieldAt b 0 2 == 1 &&
    fieldAt b 2 1 == s.silicon.cls.arrays && fieldAt b 4 2 == np && fieldAt b 8 8 == s.silicon.dieId.toNat &&
    fieldAt b 3 1 == 0 && fieldAt b 6 2 == 0 &&
    (List.range (16 * np)).all (fun i => fld (fieldAt b (16 + 2 * i) 2) 14 9 == 0) &&
    (if s.isZ64 then (List.range 8).all (fun x => fld (fieldAt b (16 + 32 * np + 2 * x) 2) 14 3 == 0)
      else allZero (slice b (16 + 32 * np) (32 + 32 * np))) &&
    (List.range np).all (fun a => decide (countOf es a false ≤ fieldSpares s a false) &&
      decide (countOf es a true ≤ fieldSpares s a true))

/-- Bytes of a buffer that software writes; an unwritten byte reads as zero (log 6). -/
def bufBytes (m : Mem) (n : Nat) : List Byte := (List.range n).map (fun i => (m.byte? i).getD 0)

/-- Apply an accepted record. -/
def spareApply (s : State) (b : List Byte) : State :=
  let all := parseSpares s b
  let es := (all.filter (fun e => !spareIgnored s e)).eraseDups
  let sp := if s.isZ64 then (List.range 8).filterMap (fun x =>
      let w := fieldAt b (16 + 32 * s.silicon.cls.physArrays + 2 * x) 2
      if bitAt w 15 then some (x, fld w 2 0) else none) else []
  let t := { s with ras := { s.ras with retired := es, spareFor := sp },
                    boot := { s.boot with spareRestored := true } }
  if all.any (spareIgnored s) then reservedRead t 6 0x281000 else t

/-! The flowstone record (R345 to R349). -/

def lifeU64s (t : Tab (BitVec 64)) (n : Nat) : List Byte :=
  (List.range n).flatMap (fun i => leBytes 8 (Tab.get (0 : BitVec 64) t i).toNat)
def lifeU32s (t : Tab Word) (n : Nat) : List Byte :=
  (List.range n).flatMap (fun i => leBytes 4 (Tab.get (0 : Word) t i).toNat)

/-- Element entry `i` of R348. -/
def lifeElem (c : LifeCounts) (i : Nat) : List Byte :=
  leBytes 8 (Tab.get (0 : BitVec 64) c.faults i).toNat ++ leBytes 4 (Tab.get (0 : Word) c.retires i).toNat ++
    leBytes 4 (if c.perms.contains i then 1 else 0)

/-- The record as 6,144 bytes with its CRC. -/
def lifeRecord (s : State) : List Byte :=
  let c := s.life.rec_
  let head := leBytes 4 0x574F4C46 ++ leBytes 2 1 ++ leBytes 1 s.silicon.cls.arrays ++
    leBytes 1 (if s.life.disc then 1 else 0) ++ leBytes 8 s.silicon.dieId.toNat ++ leBytes 4 s.life.saves.toNat ++
    leBytes 4 0 ++ leBytes 8 s.life.saveStep.toNat ++ List.replicate 32 0
  let body := head ++ lifeU64s c.globals 32 ++ lifeU64s c.stalls 18 ++ List.replicate 48 0 ++
    (List.range 256).flatMap (lifeElem c) ++ lifeU32s c.temps 128 ++ lifeU32s c.ropes 128 ++ List.replicate 508 0
  body ++ leBytes 4 (crc32c body).toNat

/-- Counts read back from a record. -/
def parseLife (b : List Byte) : LifeCounts :=
  let nz := fun (l : List (Nat × Nat)) => l.filter (fun kv => kv.2 != 0)
  { globals := (nz ((List.range 21).map (fun i => (i, fieldAt b (0x40 + 8 * i) 8)))).map (fun kv => (kv.1, BitVec.ofNat 64 kv.2)),
    stalls := (nz ((List.range 18).map (fun i => (i, fieldAt b (0x140 + 8 * i) 8)))).map (fun kv => (kv.1, BitVec.ofNat 64 kv.2)),
    faults := (nz ((List.range 254).map (fun i => (i, fieldAt b (0x200 + 16 * i) 8)))).map (fun kv => (kv.1, BitVec.ofNat 64 kv.2)),
    retires := (nz ((List.range 254).map (fun i => (i, fieldAt b (0x208 + 16 * i) 4)))).map (fun kv => (kv.1, BitVec.ofNat 32 kv.2)),
    perms := (List.range 254).filter (fun i => bitAt (fieldAt b (0x20C + 16 * i) 4) 0),
    temps := (nz ((List.range 128).map (fun i => (i, fieldAt b (0x1200 + 4 * i) 4)))).map (fun kv => (kv.1, BitVec.ofNat 32 kv.2)),
    ropes := (nz ((List.range 128).map (fun i => (i, fieldAt b (0x1400 + 4 * i) 4)))).map (fun kv => (kv.1, BitVec.ofNat 32 kv.2)) }

/-- Element `i` of R348 is one that the class has. -/
def hasElement (s : State) (i : Nat) : Bool :=
  if i < 64 then decide (i < 8 * s.slabs)
  else if i < 98 then true
  else if i < 170 then decide (i - 98 < s.silicon.cls.physArrays)
  else if i < 234 then decide ((i - 170) / 8 < s.slabs)
  else true
/-- The counts without entries of elements that the class lacks, which are zero (R345). -/
def LifeCounts.ofClass (s : State) (c : LifeCounts) : LifeCounts :=
  { c with faults := c.faults.filter (fun kv => hasElement s kv.1), retires := c.retires.filter (fun kv => hasElement s kv.1),
           perms := c.perms.filter (hasElement s) }

/-- Every reserved field of a record is zero (R345 to R348). -/
def lifeReservedZero (b : List Byte) : Bool :=
  decide (fieldAt b 7 1 < 2) && fieldAt b 0x14 4 == 0 && decide (fieldAt b 0x18 8 < 2 ^ 40) &&
    allZero (slice b 0x20 0x40) && allZero (slice b (0x40 + 8 * 21) 0x140) && allZero (slice b 0x1D0 0x200) &&
    (List.range 256).all (fun i => decide (fieldAt b (0x20C + 16 * i) 4 < 2)) &&
    [176, 177, 184, 185, 192, 193, 200, 201, 208, 209, 216, 217, 224, 225, 232, 233].all
      (fun i => allZero (slice b (0x200 + 16 * i) (0x210 + 16 * i))) &&
    allZero (slice b (0x200 + 16 * 237) (0x200 + 16 * 250)) && allZero (slice b (0x200 + 16 * 254) 0x1200) &&
    allZero (slice b 0x1600 0x17FC)

/-- Why a restored record is rejected (R352): 0 where it is accepted. -/
def lifeCause (s : State) (b : List Byte) : Nat :=
  if fieldAt b 0 4 ≠ 0x574F4C46 ∨ fieldAt b 4 2 ≠ 1 then 1
  else if fieldAt b 6 1 ≠ s.silicon.cls.arrays then 2
  else if fieldAt b 8 8 ≠ s.silicon.dieId.toNat then 3
  else if fieldAt b 0x17FC 4 ≠ (crc32c (b.take 0x17FC)).toNat then 4
  else if !lifeReservedZero b then 5 else 0

def mergeSat {w : Nat} (a b : Tab (BitVec w)) : Tab (BitVec w) :=
  b.foldl (fun t kv => t.upd 0 kv.1 (fun x => satAdd x kv.2.toNat)) a
/-- Add counts, saturating (R350). -/
def LifeCounts.addAll (a b : LifeCounts) : LifeCounts :=
  { globals := mergeSat a.globals b.globals, stalls := mergeSat a.stalls b.stalls, faults := mergeSat a.faults b.faults,
    retires := mergeSat a.retires b.retires, perms := (b.perms ++ a.perms).eraseDups, temps := mergeSat a.temps b.temps,
    ropes := mergeSat a.ropes b.ropes }

end Sys2Proof.Machine
end

