-- ==== Sys2Proof/Machine/Numerics.lean ====
section
/-! DEFINITION. Storage formats, exact values, conversions, chunk words and promotion (R22 to R44, R80 to R87). -/

namespace Sys2Proof.Machine

/-! Exact dyadic arithmetic (R38). -/

def Dy.isZero (a : Dy) : Bool := a.m == 0
def Dy.ofInt (i : Int) : Dy := ⟨i, 0⟩
def Dy.neg (a : Dy) : Dy := ⟨-a.m, a.e⟩
def Dy.abs (a : Dy) : Dy := ⟨a.m.natAbs, a.e⟩
/-- Multiply by `2^k`, exactly. -/
def Dy.scale (a : Dy) (k : Int) : Dy := ⟨a.m, a.e + k⟩
def Dy.mul (a b : Dy) : Dy := ⟨a.m * b.m, a.e + b.e⟩
/-- The significand of `a` at exponent `e`, for `e` at or below that of `a`. -/
def Dy.at (a : Dy) (e : Int) : Int := a.m * 2 ^ (a.e - e).toNat
def Dy.add (a b : Dy) : Dy :=
  if a.m = 0 then b else if b.m = 0 then a
  else let e := min a.e b.e; ⟨Dy.at a e + Dy.at b e, e⟩
def Dy.sub (a b : Dy) : Dy := Dy.add a (Dy.neg b)
/-- Exact comparison. -/
def Dy.lt (a b : Dy) : Bool :=
  if a.m = 0 ∨ b.m = 0 then decide (a.m < b.m) else let e := min a.e b.e; decide (Dy.at a e < Dy.at b e)
def Dy.le (a b : Dy) : Bool := !Dy.lt b a
def Dy.eq (a b : Dy) : Bool := Dy.le a b && Dy.le b a
/-- `⌊log₂ |a|⌋` of a non-zero value. -/
def Dy.log2 (a : Dy) : Int := (Nat.log2 a.m.natAbs : Int) + a.e
/-- The larger value. -/
def Dy.max (a b : Dy) : Dy := if Dy.lt a b then b else a
/-- `⌊a / 2^q⌋` of a magnitude `m * 2^e`, and the remainder's numerator and binary scale. -/
def floorAt (m : Nat) (e q : Int) : Nat × Nat × Nat :=
  if e ≥ q then (m * 2 ^ (e - q).toNat, 0, 0)
  else let s := (q - e).toNat; (m / 2 ^ s, m % 2 ^ s, s)
/-- Round to nearest, ties to even, from a quotient and its remainder over `2^s`. -/
def rneUp (n r s : Nat) : Bool := decide (2 * r > 2 ^ s) || (decide (2 * r = 2 ^ s) && decide (n % 2 = 1) && decide (r ≠ 0))
/-- Round a value to nearest even at `p` significant bits. -/
def Dy.roundTo (p : Nat) (a : Dy) : Dy :=
  if a.m = 0 then ⟨0, 0⟩ else
  let q := Dy.log2 a + 1 - p
  let r := floorAt a.m.natAbs a.e q
  let n : Int := (r.1 + (if rneUp r.1 r.2.1 r.2.2 then 1 else 0) : Nat)
  ⟨if a.m < 0 then -n else n, q⟩

/-! Formats (R22, R134, R397). Codes 1 to 9 name them; 6 is log8. -/

def fmtValid (f : Nat) : Bool := decide (1 ≤ f) && decide (f ≤ 9)
def fmtNibbles (f : Nat) : Nat := if f = 5 ∨ f = 7 then 2 else if f = 8 then 3 else if f = 9 then 6 else 1
def fmtScaled (f : Nat) : Bool := decide (1 ≤ f) && decide (f ≤ 6)
/-- Bits of a stored element. -/
def fmtBits (f : Nat) : Nat := if f = 1 ∨ f = 4 then 4 else if f = 7 ∨ f = 8 then 16 else if f = 9 then 32 else 8
def fmtEmax (f : Nat) : Int :=
  if f = 1 ∨ f = 4 then 2 else if f = 2 then 8 else if f = 3 ∨ f = 8 then 15 else if f = 5 then 6 else if f = 6 then 7 else 127
/-- A pair is wide if either operand is BF16, FP16 or FP32 (R41). -/
def pairWide (a b : Nat) : Bool := decide (7 ≤ a) || decide (7 ≤ b)
/-- Exponent width, fraction width and bias of a floating format (R22). -/
def fmtFloat (f : Nat) : Option (Nat × Nat × Int) :=
  if f = 1 then some (2, 1, 1) else if f = 2 then some (4, 3, 7) else if f = 3 then some (5, 2, 15)
  else if f = 7 then some (8, 7, 127) else if f = 8 then some (5, 10, 15) else if f = 9 then some (8, 23, 127) else none
/-- The largest finite magnitude (R22, R397). -/
def maxFinite (f : Nat) : Dy :=
  if f = 1 then ⟨6, 0⟩ else if f = 2 then ⟨448, 0⟩ else if f = 3 then ⟨57344, 0⟩ else if f = 4 then ⟨7, 0⟩
  else if f = 5 then ⟨127, 0⟩ else if f = 6 then ⟨939, -2⟩ else if f = 7 then ⟨255, 120⟩
  else if f = 8 then ⟨65504, 0⟩ else ⟨2 ^ 24 - 1, 104⟩

/-- The table T of R30. -/
def log8T (j : Nat) : Nat := [0x000, 0x173, 0x307, 0x4C0, 0x6A1, 0x8AD, 0xAE9, 0xD58].getD j 0
/-- The thresholds B of R30. -/
def log8B : List Nat := [0x0B5, 0x238, 0x3DF, 0x5AB, 0x7A1, 0x9C5, 0xC1A, 0xEA5]
/-- The magnitude of a log8 code or code sum (R30). -/
def log8Mag (n : Int) : Dy := ⟨((4096 + log8T (n % 8).toNat : Nat) : Int), n / 8 - 12⟩

/-- A code is non-finite (R24). -/
def nonFinite (f code : Nat) : Bool :=
  match fmtFloat f with
  | none => false
  | some (eb, mb, _) =>
    if f = 1 then false
    else if f = 2 then fld code 6 0 == 0x7F
    else fld code (mb + eb - 1) mb == 2 ^ eb - 1

/-- The value of a code as the engine reads it (R22 to R25, R30). -/
def decode (f code : Nat) : Dy :=
  if f = 4 then ⟨signed 4 code, 0⟩
  else if f = 5 then ⟨signed 8 code, 0⟩
  else if f = 6 then
    let c := signed 7 code
    if c = -64 then Dy.zero else
    let v := log8Mag c
    if bitAt code 7 then Dy.neg v else v
  else match fmtFloat f with
    | none => Dy.zero
    | some (eb, mb, bias) =>
      let neg := bitAt code (mb + eb)
      let v : Dy :=
        if nonFinite f code then maxFinite f
        else
          let e := fld code (mb + eb - 1) mb
          let m := code % 2 ^ mb
          if e = 0 then ⟨(m : Int), 1 - bias - mb⟩ else ⟨((2 ^ mb + m : Nat) : Int), (e : Int) - bias - mb⟩
      if neg then Dy.neg v else v

/-- The significand of a code as the cells multiply it: the two's-complement code of an integer format (R37), else the
unsigned significand, that of the largest finite value for a non-finite code (R24). -/
def significand (f code : Nat) : Nat :=
  match fmtFloat f with
  | none => code % 2 ^ fmtBits f
  | some (eb, mb, _) =>
    if nonFinite f code then 2 ^ (mb + 1) - 1
    else code % 2 ^ mb + (if fld code (mb + eb - 1) mb = 0 then 0 else 2 ^ mb)
/-- Non-zero nibbles of the significand of a code, which nibble-serial mode feeds (R67). -/
def nibblesSet (f code : Nat) : Nat :=
  ((List.range (fmtNibbles f)).filter (fun i => significand f code / 16 ^ i % 16 != 0)).length

/-- What a conversion gives: the code, and whether it clipped or fell to zero (R43). -/
structure Conv where
  code    : Nat
  clipped : Bool
  under   : Bool
  deriving DecidableEq, Repr

/-- The zero code of a format, sign 0 (R25, R30). -/
def zeroCode (f : Nat) : Nat := if f = 6 then 0x40 else 0

/-- Encode the multiple `n` of `2^q` in a floating format, `q` its spacing. -/
def encodeFloat (mb : Nat) (bias q : Int) (n : Nat) : Nat :=
  if n < 2 ^ mb then n
  else if n < 2 ^ (mb + 1) then (q + mb + bias).toNat * 2 ^ mb + (n - 2 ^ mb)
  else (q + mb + 1 + bias).toNat * 2 ^ mb

/-- Conversion into log8 (R34). -/
def convertLog8 (y : Dy) : Conv :=
  if y.m = 0 then ⟨0x40, false, false⟩ else
  let a := y.m.natAbs
  let p := 2 ^ Nat.log2 a
  let j := (log8B.filter (fun b => decide ((4096 + b) * p ≤ 4096 * a))).length
  let n : Int := 8 * Dy.log2 y + j
  let s := if y.m < 0 then 0x80 else 0
  if n < -63 then ⟨0x40, false, true⟩
  else if n > 63 then ⟨s + 63, true, false⟩
  else ⟨s + lowBits 7 n, false, false⟩

/-- Conversion of an exact value into a storage format (R34, R43, R44); `r24` in stochastic mode, none for round to
nearest even. -/
def convert (f : Nat) (y : Dy) (r24 : Option Nat) : Conv :=
  if f = 6 then convertLog8 y
  else if y.m = 0 then ⟨0, false, false⟩ else
  let neg := decide (y.m < 0)
  let fl := fmtFloat f
  let q : Int := match fl with
    | none => 0
    | some (_, mb, bias) => max (Dy.log2 y) (1 - bias) - mb
  let r := floorAt y.m.natAbs y.e q
  let up := match r24 with
    | none => rneUp r.1 r.2.1 r.2.2
    | some x => decide (x < r.2.1 * 2 ^ 24 / 2 ^ r.2.2)
  let n := r.1 + (if up then 1 else 0)
  let lim := if neg ∧ f = 4 then ⟨8, 0⟩ else if neg ∧ f = 5 then ⟨128, 0⟩ else maxFinite f
  let clip := Dy.lt lim ⟨(n : Int), q⟩
  if n = 0 then ⟨0, false, true⟩ else
  match fl with
  | none =>
    let w := fmtBits f
    let v := if clip then lim.m.toNat else n
    ⟨if neg then 2 ^ w - v else v, clip, false⟩
  | some (eb, mb, bias) =>
    let mag :=
      if clip then (if f = 1 then 7 else if f = 2 then 0x7E else (2 ^ eb - 1) * 2 ^ mb - 1)
      else encodeFloat mb bias q n
    ⟨(if neg then 2 ^ (mb + eb) else 0) + mag, clip, false⟩

/-- Round to nearest even into FP32 (R43). -/
def toF32 (y : Dy) : Nat := (convert 9 y none).code
/-- The value of an FP32 code (R22 to R25). -/
def ofF32 (c : Nat) : Dy := decode 9 c
/-- A magnitude rounded upward to FP32, at most the largest finite value (R138). -/
def amaxF32 (y : Dy) : Nat :=
  if y.m = 0 then 0 else
  let q := max (Dy.log2 y) (-126) - 23
  let r := floorAt y.m.natAbs y.e q
  let n := r.1 + (if r.2.1 = 0 then 0 else 1)
  if Dy.lt (maxFinite 9) ⟨(n : Int), q⟩ then 0x7F7FFFFF else encodeFloat 23 127 q n
/-- The largest `t` with `m * 2^t` at most the largest finite magnitude of a format (R143, R144), for `m` above 0. -/
def fitExp (f : Nat) (m : Dy) : Int :=
  let t := Dy.log2 (maxFinite f) - Dy.log2 m
  if Dy.le (Dy.scale (Dy.abs m) t) (maxFinite f) then t else t - 1
/-- Clamp to the range of a scale exponent. -/
def clampScale (t : Int) : Int := max (-64) (min 63 t)
/-- The histogram bin of a converted value (R138). -/
def histBin (f : Nat) (v : Dy) : Nat :=
  if v.m = 0 then 0
  else
    let d := fmtEmax f - Dy.log2 v
    if d < 0 then 1 else if d ≥ 37 then 39 else 2 + d.toNat

/-- Round to nearest even into IEEE binary64 (R103); a total's value is always in its normal range. -/
def toBinary64 (y : Dy) : Nat :=
  if y.m = 0 then 0 else
  let r := Dy.roundTo 53 y
  let q := max (Dy.log2 y) (-1022) - 52
  (if y.m < 0 then 2 ^ 63 else 0) + encodeFloat 52 1023 q (Dy.at (Dy.abs r) (min r.e q)).toNat
/-- The value of a binary64 record; an all-ones exponent reads as the largest finite value (R104). -/
def ofBinary64 (c : Nat) : Dy :=
  let e : Nat := fld c 62 52
  let m : Nat := c % 2 ^ 52
  let v : Dy :=
    if e = 2047 then ⟨2 ^ 53 - 1, 971⟩
    else if e = 0 then ⟨(m : Int), -1074⟩ else ⟨((2 ^ 52 + m : Nat) : Int), (e : Int) - 1075⟩
  if bitAt c 63 then Dy.neg v else v

/-! Casts (R36, R39, R42, R55). -/

/-- Both operands FP4 in a spatial cast are packed (R40). -/
def packedFp4 (fs ft : Nat) : Bool := fs == 1 && ft == 1
/-- Exponent of a narrow format's quantum (R42). -/
def quantumExp (f : Nat) : Int := if f = 1 then -1 else if f = 2 then -9 else if f = 3 then -16 else 0
/-- Exponent of the least significant bit of a narrow pair's chunk word (R42). -/
def chunkLsb (fs ft : Nat) : Int := if fs = 6 then -28 else quantumExp fs + quantumExp ft

/-- The exact product of a streamed and a stationary code (R31, R38). -/
def product (fs ft a b : Nat) : Dy :=
  if fs = 6 ∧ ft = 6 then
    let ca := signed 7 a
    let cb := signed 7 b
    if ca = -64 ∨ cb = -64 then Dy.zero else
    let v := log8Mag (ca + cb)
    if bitAt a 7 != bitAt b 7 then Dy.neg v else v
  else Dy.mul (decode fs a) (decode ft b)

/-- The products of a segment, in ascending k. -/
def products (fs ft : Nat) (as bs : List Nat) : List Dy := List.zipWith (product fs ft) as bs

/-- The fixed-point chunk word of a narrow segment, in units of its LSB (R80). -/
def narrowSum (lsb : Int) (ps : List Dy) : Int := ps.foldl (fun x p => x + Dy.at p (min p.e lsb)) 0

/-- The floating chunk value of a wide segment, rounded after each addition (R81). -/
def wideSum (ps : List Dy) : Dy := ps.foldl (fun x p => Dy.roundTo 84 (Dy.add x p)) Dy.zero

/-- The residue of a segment, formed apart from the sum (R70). -/
def residue (lsb : Int) (ps : List (Int × Int)) : Nat :=
  ps.foldl (fun (r : Nat) (p : Int × Int) => (r + (p.1 % 31).toNat * 2 ^ ((p.2 - lsb).toNat % 5)) % 31) 0
/-- Residue lanes of the products of a segment: `u_a·u_b` reduced lane by lane, with the product's exponent. -/
def residueLane (fs ft a b : Nat) : Int × Int :=
  if fs = 6 ∧ ft = 6 then let p := product 6 6 a b; (p.m % 31, p.e)
  else let x := decode fs a; let y := decode ft b; ((x.m % 31) * (y.m % 31), x.e + y.e)

/-- The 96-bit floating chunk word of a value of at most 84 significant bits (R80). -/
def wideWord (v : Dy) : BitVec 96 :=
  if v.m = 0 then 0 else
  let l := Dy.log2 v
  let n := (floorAt v.m.natAbs v.e (l - 83)).1
  BitVec.ofNat 96 ((if v.m < 0 then 2 ^ 95 else 0) + (l + 2047).toNat * 2 ^ 83 + (n - 2 ^ 83))
/-- The value of a chunk word (R80). -/
def chunkValue (wide : Bool) (lsb : Int) (w : BitVec 96) : Dy :=
  if wide then
    let e := fld w.toNat 94 83
    if e = 0 then Dy.zero else
    let v : Dy := ⟨((2 ^ 83 + w.toNat % 2 ^ 83 : Nat) : Int), (e : Int) - 2047 - 83⟩
    if bitAt w.toNat 95 then Dy.neg v else v
  else ⟨w.toInt, lsb⟩

/-! W160 totals (R83 to R85). A total is held as the integer X of its s184 value. -/

/-- What a promotion adds to a total (R85), and what it counts. -/
structure Promoted where
  n         : Int
  saturated : Bool
  floorLoss : Bool
  deriving DecidableEq, Repr

/-- Promote a chunk's exact value at an anchor (R85). -/
def promote (v : Dy) (anchor : Int) : Promoted :=
  let lsb := anchor - 128
  let top : Dy := ⟨1, anchor + 31⟩
  if Dy.le top v then ⟨2 ^ 159 - 1, true, false⟩
  else if Dy.lt v (Dy.neg top) then ⟨-(2 ^ 159), true, false⟩
  else
    let n0 : Int := if v.e ≥ lsb then v.m * 2 ^ (v.e - lsb).toNat else v.m / 2 ^ (lsb - v.e).toNat
    let s := if v.e ≥ lsb then 0 else (lsb - v.e).toNat
    let r := (v.m % (2 ^ s : Nat)).toNat
    let n := if rneUp (n0 % 2).toNat r s then n0 + 1 else n0
    if n > 2 ^ 159 - 1 then ⟨2 ^ 159 - 1, true, decide (r ≠ 0)⟩ else ⟨n, false, decide (r ≠ 0)⟩

/-- A total as it leaves the sump: saturated to the window of R83, and whether it was outside. -/
def leave (x : Int) : Int × Bool :=
  if x > 2 ^ 159 - 1 then (2 ^ 159 - 1, true) else if x < -(2 ^ 159) then (-(2 ^ 159), true) else (x, false)
/-- The value of a total at an anchor (R83). -/
def totalValue (x anchor : Int) : Dy := ⟨x, anchor - 128⟩

end Sys2Proof.Machine
end

