-- ==== Sys2Proof/Machine/Zgen.lean ====
section
/-! DEFINITION. The random-bit generator (R45 to R51). -/

namespace Sys2Proof.Machine

/-- A 128-bit block or key as four words. -/
structure Quad where
  a : Word
  b : Word
  c : Word
  d : Word
  deriving DecidableEq, Repr

def Quad.get (q : Quad) (i : Nat) : Word := if i % 4 = 0 then q.a else if i % 4 = 1 then q.b else if i % 4 = 2 then q.c else q.d

/-- The generator key (R45). -/
def zgenKey (seed unit port cls step : Nat) (shared : Bool) : Quad :=
  let u := if shared then 0 else unit
  let p := if shared then 0 else port
  { a := BitVec.ofNat 32 seed, b := BitVec.ofNat 32 (seed / 2 ^ 32),
    c := BitVec.ofNat 32 (u % 2 ^ 16 + p % 2 ^ 8 * 2 ^ 16 + cls % 2 ^ 8 * 2 ^ 24), d := BitVec.ofNat 32 step }

/-- One of the ten rounds, with the word rotation that follows it (R48). -/
def zgenRound (key x : Quad) (i : Nat) : Quad :=
  let rk := key.get i ^^^ (0x9E3779B9 * BitVec.ofNat 32 (i + 1))
  let x0 := x.a + x.b + rk
  let x3 := (x.d ^^^ x0).rotateLeft 13
  let x2 := x.c + x3
  let x1 := (x.b ^^^ x2).rotateLeft 9
  let x0 := x0 + x1
  let x3 := (x3 ^^^ x0).rotateLeft 17
  let x2 := x2 + x3 + key.get (i + 2)
  let x1 := (x1 ^^^ x2).rotateLeft 5
  { a := x1, b := x2, c := x3, d := x0 }

/-- The keyed permutation of R48. -/
def zgen (key ctr : Quad) : Quad :=
  let x := (List.range 10).foldl (zgenRound key) ctr
  { a := x.a + key.a, b := x.b + key.b, c := x.c + key.c, d := x.d + key.d }

/-- The word drawn for element `e` of a tensor (R48). -/
def draw (key : Quad) (tid e : Nat) : Word :=
  (zgen key { a := BitVec.ofNat 32 (e / 4), b := BitVec.ofNat 32 (fld e 47 34), c := BitVec.ofNat 32 tid, d := 0 }).get e

/-- The 24 random bits of a stochastic rounding (R48). -/
def r24 (w : Word) : Nat := w.toNat / 256

end Sys2Proof.Machine
end

