-- ==== Sys2Proof/Machine/Operands.lean ====
section
/-! DEFINITION. What a command's operands name: sections of the live image, table entries, contexts and descriptors
in host memory, streams and scales, masks, and the elements of staging they address. -/

namespace Sys2Proof.Machine

/-! The image (R160 to R173). -/

def liveImg (s : State) : List Byte := s.img.live.getD []

/-- Directory entry `i`: type, variant, offset, size (R162). -/
def imgDir (img : List Byte) (i : Nat) : Nat × Nat × Nat × Nat :=
  let o := 64 + 16 * i
  (fieldAt img o 1, fieldAt img (o + 1) 1, fieldAt img (o + 4) 4, fieldAt img (o + 8) 4)

/-- The bytes of the section of a type for a variant (`0xFF` for a shared one); empty where the image has none. -/
def imgSection (img : List Byte) (typ var : Nat) : List Byte :=
  match (List.range (fieldAt img 0x1C 2)).find? (fun i => let d := imgDir img i; d.1 == typ && d.2.1 == var) with
  | some i => let d := imgDir img i; slice img d.2.2.1 (d.2.2.1 + d.2.2.2)
  | none => []

/-- A section of the live image for the variant in force. -/
def varSection (s : State) (typ : Nat) : List Byte := imgSection (liveImg s) typ s.img.variant
def sharedSection (s : State) (typ : Nat) : List Byte := imgSection (liveImg s) typ 0xFF
def imgVariants (s : State) : Nat := fieldAt (liveImg s) 9 1

/-- A cast-map entry with the cast it fixes (R39, R40, R54, R55, R66, R164). -/
structure Cast where
  fs      : Nat
  ft      : Nat
  enabled : Bool
  serial  : Bool
  L       : Nat
  deriving DecidableEq, Repr

def Cast.ofBytes (b : List Byte) : Cast :=
  { fs := fieldAt b 0 1, ft := fieldAt b 1 1, enabled := bitAt (fieldAt b 2 1) 0, serial := bitAt (fieldAt b 2 1) 1,
    L := fieldAt b 4 2 }
/-- Cast rows r and columns c in cells. DESIGN CHOICE: FP4 with a format of two or more nibbles takes the r × c cast of R39;
R40 says of such a pair that it takes a 1×1 cast (log 93). -/
def Cast.r (x : Cast) : Nat := if x.serial then 1 else fmtNibbles x.fs
def Cast.c (x : Cast) : Nat := fmtNibbles x.ft
def Cast.p (x : Cast) : Nat := if packedFp4 x.fs x.ft && !x.serial then 2 else 1
/-- Cast rows G and columns C of the grid. -/
def Cast.rows (x : Cast) : Nat := 256 / x.r
def Cast.cols (x : Cast) : Nat := 256 / x.c
/-- Cast rows h of a chunk, and segments S. -/
def Cast.h (x : Cast) : Nat := x.L / x.p
def Cast.segs (x : Cast) : Nat := x.rows / x.h
/-- Cell rows U that a pass uses (R56). -/
def Cast.used (x : Cast) : Nat := x.segs * x.h * x.r
def Cast.wide (x : Cast) : Bool := pairWide x.fs x.ft

/-- The cast map of a variant, by logical array. -/
def castOfVariant (img : List Byte) (v a : Nat) : Cast := Cast.ofBytes (slice (imgSection img 1 v) (16 * a) (16 * a + 16))
def castOf (s : State) (a : Nat) : Cast := castOfVariant (liveImg s) s.img.variant a

/-- Descriptors of the feeder-programs section (R166). -/
def feederCount (s : State) : Nat := fieldAt (varSection s 2) 0 2
def feederDesc (s : State) (i : Nat) : List Byte := slice (varSection s 2) (64 + 64 * i) (128 + 64 * i)

/-- A staging partition of the variant in force (R168). -/
structure Part where
  kind    : Nat
  base    : Nat
  slots   : Nat
  maxLoan : Nat
  credits : Nat
  deriving DecidableEq, Repr

def partOfVariant (img : List Byte) (v slab part : Nat) : Part :=
  let b := slice (imgSection img 4 v) (576 * slab + 64 + 16 * part) (576 * slab + 80 + 16 * part)
  { kind := fieldAt b 0 1, base := fieldAt b 2 2, slots := fieldAt b 4 2, maxLoan := fieldAt b 6 2, credits := fieldAt b 8 2 }
def partOf (s : State) (slab part : Nat) : Part := partOfVariant (liveImg s) s.img.variant slab part
def poolSlots (s : State) (slab : Nat) : Nat := fieldAt (varSection s 4) (576 * slab + 2) 2
/-- Bytes of a partition's logical window (R278); none for a partition number past 31. -/
def windowBytes (s : State) (slab part : Nat) : Nat :=
  if 32 ≤ part then 0 else let p := partOf s slab part; (p.slots + p.maxLoan) * 65536

/-- Routing (R167). -/
def comPort (s : State) (a : Nat) : Bool := bitAt (fieldAt (varSection s 3) (a / 8) 1) (a % 8)
def comChain (s : State) (slab : Nat) : Bool := bitAt (fieldAt (varSection s 3) 8 1) slab
def ropeLoop (s : State) : Bool := bitAt (fieldAt (varSection s 3) 9 1) 0
def ropeHop (s : State) (slab : Nat) : Bool := bitAt (fieldAt (varSection s 3) 10 1) slab

/-- A Z64 region's row base, row count and anchor in a variant (R169). -/
def regionOfVariant (img : List Byte) (v a g : Nat) : Nat × Nat × Int :=
  let w := fieldAt (imgSection img 5 v) (256 * a + 4 * g) 4
  (fld w 8 0, fld w 17 9, signed 10 (fld w 27 18))

/-- The state of a group or region. A region that no operation has touched stands as its table gives it (R92). -/
def groupOf (s : State) (k : Nat) : Group :=
  match List.lookup k s.sump.groups with
  | some g => g
  | none =>
    if s.isZ64 then
      let r := regionOfVariant (liveImg s) s.img.variant (k / 64) (k % 64)
      { Group.closed with isOpen := true, rowBase := r.1, rowCount := r.2.1, anchor := r.2.2 }
    else Group.closed
/-- A passage owns a group or region; its unit of ownership is issued once (R89, R338). -/
def takeOwner (s : State) (k p : Nat) : State :=
  let s := setGroup s k { groupOf s k with owner := p }
  if s.sump.owners.contains (k, p) then s
  else unitOut { s with sump := { s.sump with owners := (k, p) :: s.sump.owners } } 7 1
/-- Every group closed and every region fresh (R93); the record of each array's last stop stays (R336). -/
def resetSump (s : State) : State :=
  { s with sump := { s.sump with groups := [], totals := [], chunks := [], satPass := [], boundPass := [], arrays := s.sump.arrays.map (fun kv =>
    (kv.1, { ArrayState.reset with cutFlag := kv.2.cutFlag, entered := kv.2.entered, stopAt := kv.2.stopAt })) } }
/-- Mark a group's or region's rows fresh: its totals are no longer listed (R89). -/
def freshRows (s : State) (a base count : Nat) : State :=
  { s with sump := { s.sump with totals := s.sump.totals.dropRange (totKey a base 0) (count * 256) } }

/-- Lane groups of a slab, and the tile-register mask of a group (R170). -/
def laneGroups (s : State) (slab : Nat) : Nat := fieldAt (varSection s 6) (16 * slab) 1
def laneRegs (s : State) (slab g : Nat) : Nat := fld (fieldAt (varSection s 6) (16 * slab + 2 + g) 1) 5 0

/-- The background phase of a unit (R171): slab 0 to 7, or 8. -/
def bgPhase (s : State) (unit : Nat) : Nat := fieldAt (sharedSection s 7) (4 * unit) 2

/-- Ladders (R153, R172). -/
def ladderCount (img : List Byte) : Nat := fieldAt (imgSection img 8 0xFF) 0 2
def ladderBytes (img : List Byte) (i : Nat) : List Byte := slice (imgSection img 8 0xFF) (16 + 112 * i) (128 + 112 * i)
def rungBytes (img : List Byte) (ladder rung : Nat) : List Byte :=
  slice (ladderBytes img ladder) (16 + 16 * rung) (32 + 16 * rung)

/-- A consumer-table entry (R173): unit id, class, shared. -/
def consumer (s : State) (kind index port : Nat) : Option (Nat × Nat × Bool) :=
  let b := sharedSection s 9
  let hit := (List.range (fieldAt b 0 2)).find? (fun i =>
    let o := 16 + 8 * i
    fieldAt b o 1 == kind && fieldAt b (o + 1) 1 == index && fieldAt b (o + 4) 1 == port)
  hit.map (fun i => let o := 16 + 8 * i; (fieldAt b (o + 2) 2, fieldAt b (o + 5) 1, bitAt (fieldAt b (o + 6) 1) 0))

/-- The seed of the step; one that software changed within the step gives unspecified draws (R7, R46, log 8). -/
def stepSeed (s : State) : Nat :=
  if smpPair s 0x000080 = livePair s 0x000080 then smpPair s 0x000080 else Config.freeSeed s.freeCtr % 2 ^ 64
/-- The generator key of a consumer used under a class; none where it is undeclared or of another class (R45, R173,
R221). -/
def consumerKey (s : State) (kind index port cls : Nat) : Option Quad :=
  match consumer s kind index port with
  | some (unit, c, shared) =>
    if c = cls then some (zgenKey (stepSeed s) unit port cls s.psc.step.toNat shared) else none
  | none => none

/-! Passage table, residency sets, contexts, descriptors (R192, R196, R197). -/

/-- A passage-table entry. -/
structure PEntry where
  cls      : Nat
  prio     : Nat
  valid    : Bool
  spec     : Bool
  byLayer  : Bool
  cond     : Nat
  variant  : Nat
  succ     : Nat
  bundles  : Nat
  blen     : Nat
  nctx     : Nat
  nres     : Nat
  ctx      : Nat
  res      : Nat
  desc     : Nat
  ndesc    : Nat
  reserved : Bool
  deriving DecidableEq, Repr

def addr52 (x : Nat) : Nat := x % 2 ^ 52
/-- Bits above 51 of an address field are reserved. -/
def addrHigh (x : Nat) : Bool := decide (2 ^ 52 ≤ x)

def PEntry.ofBytes (b : List Byte) : PEntry :=
  let f := fieldAt b 2 1
  let layer := bitAt f 2
  { cls := fieldAt b 0 1, prio := fieldAt b 1 1, valid := bitAt f 0, spec := bitAt f 1, byLayer := layer,
    cond := fieldAt b 3 1, variant := fieldAt b 4 2, succ := fieldAt b 6 2, bundles := addr52 (fieldAt b 8 8),
    blen := fieldAt b 0x10 4, nctx := fieldAt b 0x14 2, nres := fieldAt b 0x16 1, ctx := addr52 (fieldAt b 0x18 8),
    res := addr52 (fieldAt b 0x20 8), desc := addr52 (fieldAt b 0x28 8), ndesc := fieldAt b 0x30 2,
    reserved := decide (8 ≤ f) || (!layer && decide (64 ≤ fieldAt b 4 2)) || fieldAt b 0x17 1 != 0 ||
      addrHigh (fieldAt b 8 8) || addrHigh (fieldAt b 0x18 8) || addrHigh (fieldAt b 0x20 8) ||
      addrHigh (fieldAt b 0x28 8) || !allZero (slice b 0x32 0x40) }

def ptBase (s : State) : Nat := smpPair s 0x040020
def ptCount (s : State) : Nat := smpReg s 0x040028
def pentry (s : State) (p : Nat) : PEntry := PEntry.ofBytes (smpBytes s (ptBase s + 64 * p) 64)

/-- A residency entry. -/
structure REntry where
  kind      : Nat
  rope      : Bool
  versioned : Bool
  orderT    : Bool
  current   : Bool
  binding   : Nat
  slab      : Nat
  part      : Nat
  slot      : Nat
  ref       : Nat
  addr      : Nat
  bytes     : Nat
  reserved  : Bool
  deriving DecidableEq, Repr

def REntry.ofBytes (b : List Byte) : REntry :=
  let f := fieldAt b 1 1
  let k := fieldAt b 0 1
  let ver := bitAt f 1
  { kind := k, rope := bitAt f 0, versioned := ver, orderT := bitAt f 2, current := bitAt f 3,
    binding := fld f 7 4, slab := fieldAt b 2 1, part := fieldAt b 3 1, slot := fieldAt b 4 2, ref := fieldAt b 6 2,
    addr := addr52 (fieldAt b 8 8), bytes := fieldAt b 0x10 4,
    reserved := (k == 1 && !ver && fieldAt b 6 2 != 0) || addrHigh (fieldAt b 8 8) || !allZero (slice b 0x14 0x20) }

def rentry (s : State) (p i : Nat) : REntry := REntry.ofBytes (smpBytes s ((pentry s p).res + 32 * i) 32)
/-- The residency entries of a passage, by index. -/
def rentries (s : State) (p : Nat) : List (Nat × REntry) := (List.range (pentry s p).nres).map (fun i => (i, rentry s p i))
/-- Logical slots a residency entry covers. -/
def REntry.slots (e : REntry) : List Nat := (List.range (ceilDiv e.bytes 65536)).map (· + e.slot)

/-- An operand context (R192). -/
structure Ctx where
  kind     : Nat
  part     : Nat
  stream   : Nat
  tid      : Nat
  offset   : Nat
  pitch    : Nat
  kExt     : Nat
  nExt     : Nat
  side     : Nat
  side2    : Nat
  stream2  : Nat
  mask     : Nat
  outlier  : Nat
  rescale  : Nat
  axis     : Bool
  fuse     : Nat
  fpart    : Nat
  fstream  : Nat
  foffset  : Nat
  fpitch   : Nat
  spitch   : Nat
  addr     : Nat
  reserved : Bool
  deriving DecidableEq, Repr

def Ctx.ofBytes (addr : Nat) (b : List Byte) : Ctx :=
  let k := fieldAt b 0 1
  let d := fieldAt b 0x2F 1
  { kind := k, part := fieldAt b 1 1, stream := fieldAt b 2 2, tid := fieldAt b 4 4, offset := fieldAt b 8 4 % 2 ^ 25,
    pitch := fieldAt b 0xC 4, kExt := fieldAt b 0x10 4, nExt := fieldAt b 0x14 4, side := addr52 (fieldAt b 0x18 8),
    side2 := addr52 (fieldAt b 0x20 8), stream2 := fieldAt b 0x28 2, mask := fieldAt b 0x2A 2,
    outlier := fieldAt b 0x2C 2, rescale := fieldAt b 0x2E 1, axis := bitAt d 0, fuse := fld d 2 1,
    fpart := fieldAt b 0x30 1, fstream := fieldAt b 0x32 2, foffset := fieldAt b 0x34 4 % 2 ^ 25,
    fpitch := fieldAt b 0x38 4, spitch := fieldAt b 0x3C 4, addr := addr,
    reserved := decide (2 ^ 25 ≤ fieldAt b 8 4) || addrHigh (fieldAt b 0x18 8) || addrHigh (fieldAt b 0x20 8) ||
      fieldAt b 0x31 1 != 0 || decide (2 ^ 25 ≤ fieldAt b 0x34 4) ||
      (k == 1 && decide (8 ≤ d)) || (k == 2 && (!allZero (slice b 0x10 0x18) || !allZero (slice b 0x20 0x2A) ||
        !allZero (slice b 0x2C 0x2E) || decide (8 ≤ d) || !allZero (slice b 0x3C 0x40))) }

/-- No defined field holds a reserved value and the kind is the one the slot needs; else the context is read as no
operation (R192). -/
def Ctx.good (c : Ctx) (kind : Nat) : Bool :=
  c.kind == kind && decide (c.part < 32) &&
    (kind != 2 || (c.fuse != 3 && (decide (c.rescale < 64) || c.rescale == 0xFF) && decide (c.fpart < 32)))

def ctxAddr (s : State) (p i : Nat) : Nat := (pentry s p).ctx + 64 * i
def ctxOf (s : State) (p i : Nat) : Ctx := Ctx.ofBytes (ctxAddr s p i) (smpBytes s (ctxAddr s p i) 64)

/-- Bytes of an entry of a passage's descriptor table, from host memory as it stands. -/
def descBytes (s : State) (p i : Nat) : List Byte := portBytes s ((pentry s p).desc + 64 * i) 64

/-- Requests under way: those presented, and those of transfers that go on which are to be presented again. -/
def underWay (s : State) : List BmpReq :=
  s.bmp.reqs.filter (fun r => !r.late) ++ s.bmp.redo.filter (fun r => s.bmp.jobs.any (fun j => j.id == r.job))
/-- Host bytes that an outstanding write of the memory port has still to reach (R275). -/
def writeDue (s : State) (a n : Nat) : Bool :=
  match mapAddr s a n with
  | some b => (underWay s).any (fun r => r.write && decide (b < r.addr + 64 * r.beats) && decide (r.addr < b + n))
  | none => false
/-- Host bytes that an outstanding request of the memory port reads or writes (R275). -/
def accessDue (s : State) (a n : Nat) : Bool :=
  match mapAddr s a n with
  | some b => (underWay s).any (fun r => decide (b < r.addr + 64 * r.beats) && decide (r.addr < b + n))
  | none => false

/-! Rules, rungs, streams and scales (R135, R141, R153, R155). -/

/-- A rule-table entry as bytes, from the step's copy. -/
def ruleBytes (s : State) (l : Nat) : List Byte := inBytes s (smpPair s 0x050018 + 96 * l) 96
/-- One sub-rule keeps its ranges and reserved fields (R155). -/
def subRuleOk (b : List Byte) : Bool :=
  fieldAt b 0 1 == 0 ||
    (decide (1 ≤ fieldAt b 1 1) && decide (fieldAt b 1 1 ≤ 37) && decide (1 ≤ fieldAt b 2 2) &&
     decide (fieldAt b 4 4 < 2 ^ 24) && decide (fieldAt b 8 4 < 2 ^ 24) &&
     (List.range 4).all (fun i => let x := fieldAt b (0xC + 2 * i) 2; decide (x < 4096) || x == 0xFFFF) &&
     fieldAt b 0x14 4 == 0)
def ruleReserved (b : List Byte) : Bool :=
  decide (2 ≤ fieldAt b 2 1) || fieldAt b 3 1 != 0 || !allZero (slice b 6 0x10) || !allZero (slice b 0x58 0x60) ||
    [0x10, 0x28, 0x40].any (fun o => decide (2 ^ 24 ≤ fieldAt b (o + 4) 4) || decide (2 ^ 24 ≤ fieldAt b (o + 8) 4) ||
      fieldAt b (o + 0x14) 4 != 0)
def ruleEnabledBit (b : List Byte) : Bool := bitAt (fieldAt b 2 1) 0
/-- An enabled entry holds to its ranges (R155, R172). -/
def ruleOk (s : State) (b : List Byte) : Bool :=
  decide (fieldAt b 0 2 < min 64 (ladderCount (liveImg s))) && decide (1 ≤ fieldAt b 4 2) && !ruleReserved b &&
    [0x10, 0x28, 0x40].all (fun o => subRuleOk (slice b o (o + 0x18)))
/-- The layer's rule entry is enabled for the step. -/
def ruleEnabled (s : State) (l : Nat) : Bool :=
  decide (l < smpReg s 0x050020) && ruleEnabledBit (ruleBytes s l) && ruleOk s (ruleBytes s l)
/-- The rung index in force of a layer whose ladder is known: the initial rung while its state is fresh (R156). -/
def rungIndex (s : State) (l ladder : Nat) : Nat :=
  let x := getLayer s l
  if x.fresh then fieldAt (ladderBytes (liveImg s) ladder) 1 1 else x.rung
/-- The layer's rung in force, as bytes (R153, R156). DESIGN CHOICE: a rung number at or above the ladder's count, which a write of
governor state or another ladder can leave, names an unused rung of the image or none: its bytes read as zero (log 126). -/
def rungOf (s : State) (l : Nat) : List Byte :=
  let ladder := fieldAt (ruleBytes s l) 0 2
  rungBytes (liveImg s) ladder (rungIndex s l ladder)

/-- A stream as the step treats it (R135). -/
structure Stream where
  valid     : Bool
  layer     : Nat
  role      : Nat
  fmt       : Nat
  delayed   : Bool
  jit       : Bool
  histLen   : Nat
  margin    : Nat
  sigmaInit : Int
  outlier   : Nat
  deriving DecidableEq, Repr

def streamBytes (s : State) (x : Nat) : List Byte := inBytes s (smpPair s 0x050000 + 32 * x) 32
def streamReserved (b : List Byte) : Bool :=
  (fieldAt b 2 1 != 0 && fieldAt b 3 1 != 0) || decide (4 ≤ fieldAt b 4 1) || !allZero (slice b 0xA 0x20)
/-- The format a role takes from a rung (R135). -/
def roleFmt (rung : List Byte) (role : Nat) : Nat :=
  if role = 1 then fieldAt rung 0 1 else if role = 2 then fieldAt rung 6 1 else if role = 3 then fieldAt rung 1 1
  else fieldAt rung 3 1
def streamOk (s : State) (b : List Byte) : Bool :=
  let role := fieldAt b 2 1
  let layer := fieldAt b 0 2
  !streamReserved b && decide (role ≤ 4) && decide (1 ≤ fieldAt b 5 1) && decide (fieldAt b 5 1 ≤ 16) &&
    decide (fieldAt b 6 1 ≤ 15) && decide (-64 ≤ signed 8 (fieldAt b 7 1)) && decide (signed 8 (fieldAt b 7 1) ≤ 63) &&
    (if role = 0 then layer == 0xFFFF && fmtValid (fieldAt b 3 1)
     else decide (layer < 1024) && ruleEnabled s layer)
/-- Fixed-format FP32 without scaling, check or outliers: how an invalid stream is treated. -/
def Stream.plain (valid : Bool) : Stream :=
  { valid := valid, layer := 0xFFFF, role := 0, fmt := 9, delayed := false, jit := false, histLen := 1, margin := 0,
    sigmaInit := 0, outlier := 0 }
def streamOf (s : State) (x : Nat) : Stream :=
  if x = 0xFFFF then Stream.plain true
  else if smpReg s 0x050008 ≤ x then Stream.plain false
  else
    let b := streamBytes s x
    if !streamOk s b then Stream.plain false else
    let role := fieldAt b 2 1
    { valid := true, layer := fieldAt b 0 2, role := role,
      fmt := if role = 0 then fieldAt b 3 1 else roleFmt (rungOf s (fieldAt b 0 2)) role,
      delayed := bitAt (fieldAt b 4 1) 0, jit := bitAt (fieldAt b 4 1) 1, histLen := fieldAt b 5 1,
      margin := fieldAt b 6 1, sigmaInit := signed 8 (fieldAt b 7 1), outlier := fieldAt b 8 2 }
/-- The stream's tensors carry scale exponents (R134, R141). -/
def Stream.scaled (x : Stream) : Bool := x.delayed && fmtScaled x.fmt
/-- Its tiles are checked (R144). -/
def Stream.checked (x : Stream) : Bool := x.scaled && x.jit

def recAddr (s : State) (x : Nat) : Nat := smpPair s 0x050010 + 512 * x
def recNat (s : State) (x o n : Nat) : Nat := portNat s (recAddr s x + o) n
def recWrite (s : State) (x o n v : Nat) : State := portWrite s (recAddr s x + o) (leBytes n v)
/-- A statistics record has a non-zero reserved field: `reserved_write` for one that is read (R14, R140, R306). -/
def recReserved (s : State) (x : Nat) : Bool :=
  recNat s x 0x16C 4 != 0 || recNat s x 0x175 3 != 0 || recNat s x 0x17D 3 != 0 ||
    !allZero (portBytes s (recAddr s x + 0x1C0) 64)
def noteRecord (s : State) (x : Nat) : State := if recReserved s x then reservedRead s 3 (recAddr s x) else s
/-- Streams of the stream table, in ascending order. -/
def streamList (s : State) : List Nat := List.range (min 4096 (smpReg s 0x050008))
/-- The initial scale exponent that a stream's entry gives, in force or not (R135, R143). -/
def streamInit (s : State) (x : Nat) : Int := signed 8 (fieldAt (streamBytes s x) 7 1)
/-- Reset a stream's history to a format (R143). -/
def resetSigma (s : State) (x : Nat) (sigma : Int) (fmt : Nat) : State :=
  recWrite (recWrite (recWrite (recWrite s x 0x179 1 (lowBits 8 sigma)) x 0x17B 1 0) x 0x17C 1 0) x 0x178 1 fmt
/-- Streams whose format differs from what it was before a change of the image start their scale and history afresh (R143,
R180). -/
def resetFormats (old s : State) : State :=
  (streamList s).foldl (fun t x =>
    if (streamOf old x).fmt ≠ (streamOf s x).fmt then resetSigma t x (streamInit s x) (streamOf s x).fmt else t) s
/-- The scale exponent in force of a stream (R140, R141). -/
def sigmaOf (s : State) (x : Nat) : Int :=
  if (streamOf s x).scaled then signed 8 (portNat s (recAddr s x + 0x179) 1) else 0

/-- Stochastic rounding of a stream's drain, gradient convert or weight copy by its rung (R153, R189, R218). -/
def rungRound (s : State) (x : Stream) (bit : Nat) : Bool :=
  x.role != 0 && bitAt (fieldAt (rungOf s x.layer) 7 1) bit

/-! Side tables (R141). -/

/-- A δ of −128 to −65 is reserved and reads as 0 (R141). DESIGN CHOICE: one of 64 to 127, which no writer forms and no rule calls
reserved, is used as it stands (log 125). -/
def deltaOk (d : Int) : Bool := decide (-64 ≤ d)
/-- A reader names the tensor of a side table as its writer did: by the same row pitch and the same base, in whichever partition. A
table the engine did not write is taken as the reader names it (R141). -/
def sideAgrees (s : State) (side place pitch : Nat) : Bool :=
  match List.lookup side s.gov.sides with
  | some w => w.2 == pitch && w.1 % 2 ^ 26 == place % 2 ^ 26
  | none => true
/-- The header of a side table: σ, and whether its reserved bytes are set (R14, R141). -/
def sideHead (s : State) (side : Nat) : Int × Bool := (signed 8 (portNat s side 1), portNat s (side + 1) 3 != 0)
/-- σ + δ of the tile of a stored row and column, read from a side table, and whether the table holds a reserved value or field. A
reader that names the tensor otherwise than its writer has an unspecified one (R7, R141, log 8). -/
def sideScale (s : State) (side place pitch fmt row col : Nat) : Int × Bool :=
  let perRow := pitch * 8 / fmtBits fmt
  let i := (row / 256) * ceilDiv perRow 256 + col / 256
  let d := signed 8 (portNat s (side + 8 + i) 1)
  let h := sideHead s side
  (if sideAgrees s side place pitch then h.1 + (if deltaOk d then d else 0) else Config.freeScale s.freeCtr (2 ^ 64 + side * 2 ^ 20 + i),
   h.2 || !deltaOk d)

/-! Masks (R120 to R123). -/

/-- A map of `n` bits that a mask declares lies in host memory, whose size is the surroundings' own (R122, log 92). -/
def mapInHost (addr n : Nat) : Bool := decide (addr + ceilDiv n 8 ≤ 2 ^ 52) && Config.hostHas addr
def maskBytes (s : State) (m : Nat) : List Byte := inBytes s (smpPair s 0x040030 + 32 * m) 32
def maskReserved (b : List Byte) : Bool :=
  decide (4 ≤ fieldAt b 2 1) || fieldAt b 3 1 != 0 || fieldAt b 0xC 4 != 0 || addrHigh (fieldAt b 0x10 8) ||
    addrHigh (fieldAt b 0x18 8)
/-- A mask entry that passes R122; index 0, a bad entry and an index past the count are no mask. -/
def maskOk (s : State) (m : Nat) : Bool :=
  let b := maskBytes s m
  let rows := fieldAt b 4 4
  let cols := fieldAt b 8 4
  decide (m < smpReg s 0x040038) && fieldAt b 0 2 == 1 && !maskReserved b && decide (1 ≤ rows) && decide (rows ≤ 2 ^ 20) &&
    decide (1 ≤ cols) && decide (cols ≤ 2 ^ 20) && (!bitAt (fieldAt b 2 1) 0 || mapInHost (fieldAt b 0x10 8) rows) &&
    (!bitAt (fieldAt b 2 1) 1 || mapInHost (fieldAt b 0x18 8) (ceilDiv rows 256 * ceilDiv cols 256))
def rowMasked (s : State) (m row : Nat) : Bool :=
  if m = 0 || !maskOk s m then false else
  let b := maskBytes s m
  bitAt (fieldAt b 2 1) 0 && decide (row < fieldAt b 4 4) && bitAt (inNat s (fieldAt b 0x10 8 + row / 8) 1) (row % 8)
def blockMasked (s : State) (m i j : Nat) : Bool :=
  if m = 0 || !maskOk s m then false else
  let b := maskBytes s m
  let k := i * ceilDiv (fieldAt b 8 4) 256 + j
  bitAt (fieldAt b 2 1) 1 && bitAt (inNat s (fieldAt b 0x18 8 + k / 8) 1) (k % 8)
/-- A mask index that names no usable entry (R122, R375). -/
def maskBad (s : State) (m : Nat) : Bool := m != 0 && !maskOk s m
/-- Raise `reserved_write` and `mask_invalid` once per step for a mask with reserved fields set, or one that fails validation
(R14, R121, R122). -/
def noteMask (s : State) (m : Nat) : State :=
  let s := if m = 0 then s else noteTable s (smpPair s 0x040030 + 32 * m) 32
  let s := if m != 0 && decide (m < smpReg s 0x040038) && maskReserved (maskBytes s m) then
      raiseOnceStep s 2 Ev.reservedWrite (2 ^ 33 + m) (pack [(3, 7), (21, (smpPair s 0x040030 + 32 * m) / 4)])
    else s
  if maskBad s m then raiseOnceStep s 2 Ev.maskInvalid m (pack [(10, m)]) else s

/-! Outlier lists (R149): the channels of a stream's list, empty where the list breaks a rule. -/

def outlierBytes (s : State) (i : Nat) : List Byte := inBytes s (smpPair s 0x070000 + 260 * i) 260
def outlierOk (s : State) (i : Nat) : Bool :=
  let b := outlierBytes s i
  let n := fieldAt b 0 2
  let ch := (List.range 64).map (fun j => fieldAt b (4 + 4 * j) 4)
  decide (i < smpReg s 0x070008) && decide (n ≤ 64) && fieldAt b 2 2 == 0 && (ch.drop n).all (· == 0) &&
    (List.range (n - 1)).all (fun j => decide (ch.getD j 0 < ch.getD (j + 1) 0))
/-- A stream of another role than activation names the list (R149). -/
def outlierMisnamed (s : State) (i : Nat) : Bool :=
  (streamList s).any (fun x => let st := streamOf s x; st.outlier == i && st.role != 1)
def outlierList (s : State) (x : Stream) : List Nat :=
  if x.outlier = 0 || x.role != 1 || !outlierOk s x.outlier || outlierMisnamed s x.outlier then [] else
  let b := outlierBytes s x.outlier
  (List.range (fieldAt b 0 2)).map (fun j => fieldAt b (4 + 4 * j) 4)

/-! Elements of staging. An element's place is counted in nibbles from the start of its partition's window (R26). -/

/-- Nibbles of a stored element. -/
def fmtNibs (f : Nat) : Nat := fmtBits f / 4
/-- The place of element `k` of the row `n` of a tensor. -/
def elemAt (offset pitch row col fmt : Nat) : Nat := 2 * (offset + row * pitch) + col * fmtNibs fmt
/-- The element's bytes lie in the partition's window. -/
def inWindow (s : State) (slab part nib fmt : Nat) : Bool :=
  decide ((nib + fmtNibs fmt + 1) / 2 ≤ windowBytes s slab part)
/-- Read a code. -/
def readElem (s : State) (slab part nib fmt : Nat) : Nat :=
  let k := stKey slab part (nib / 2)
  if fmtBits fmt = 4 then fld (stByte s k).toNat (3 + 4 * (nib % 2)) (4 * (nib % 2))
  else leNat ((List.range (fmtBits fmt / 8)).map (fun i => stByte s (k + i)))
/-- Write a code. A 4-bit code keeps the other nibble of its byte; the last of an odd row writes the pad nibble as
zero (R26). -/
def writeElem (s : State) (slab part nib fmt code : Nat) (pad : Bool) : State :=
  let k := stKey slab part (nib / 2)
  if fmtBits fmt = 4 then
    let old := (stByte s k).toNat
    let v := if nib % 2 = 1 then old % 16 + 16 * (code % 16) else code % 16 + (if pad then 0 else 16 * (old / 16))
    stWrite s k [BitVec.ofNat 8 v]
  else stWrite s k (leBytes (fmtBits fmt / 8) code)

/-- The element ends a row of odd extent: a 4-bit one brings the pad nibble with it (R26). -/
def endsOdd (ext col : Nat) : Bool := ext % 2 == 1 && col + 1 == ext

/-! Slots of staging (R278 to R280). -/

def allocKey (slab part slot : Nat) : Nat := (slab * 32 + part) * 1024 + slot
def allocOf (s : State) (k : Nat) : Option Alloc := List.lookup k s.staging.alloc
def held (s : State) (slab part slot : Nat) : Bool := (allocOf s (allocKey slab part slot)).isSome
/-- Slots of a partition held within its reservation, and its loans; the loans of a whole slab. -/
def heldIn (s : State) (slab part : Nat) (loan : Bool) : Nat :=
  (s.staging.alloc.filter (fun kv => kv.1 / 1024 == slab * 32 + part && kv.2.loan == loan)).length
def slabLoans (s : State) (slab : Nat) : Nat :=
  (s.staging.alloc.filter (fun kv => kv.1 / 32768 == slab && kv.2.loan)).length
def poolFree (s : State) (slab : Nat) : Nat := poolSlots s slab - slabLoans s slab

/-- Add a holder to a held slot, which a prefetch holds only while every holder is one (R202, R203). -/
def addHolder (s : State) (k passage : Nat) (spec : Bool) : State :=
  match allocOf s k with
  | some a =>
    if a.holders.contains passage then s
    else { s with staging := { s.staging with
      alloc := s.staging.alloc.put k { a with holders := passage :: a.holders, spec := a.spec && spec } } }
  | none => s
/-- Hold a free slot, as a reserved slot or as a loan. -/
def takeFree (s : State) (k passage : Nat) (loan fixed spec : Bool) : State :=
  unitOut { s with staging := { s.staging with
    alloc := s.staging.alloc.put k { loan := loan, holders := [passage], fixed := fixed, spec := spec } } } 2 1

/-- How many reserved slots and how many loans an allocation of `n` new slots takes (R280); none where it waits.
Speculative prefetch takes reserved slots only. -/
def allocPlan (s : State) (slab part n : Nat) (spec : Bool) : Option (Nat × Nat) :=
  let p := partOf s slab part
  let free := p.slots - heldIn s slab part false
  if n ≤ free then some (n, 0)
  else
    let d := n - free
    if !spec && decide (n ≤ p.slots) && decide (heldIn s slab part true + d ≤ p.maxLoan) && decide (d ≤ poolFree s slab)
    then some (free, d) else none

/-- Take new slots: the first `own` of them as reserved slots, the rest as loans. -/
def takeSlots (s : State) (slab part passage : Nat) (fixed spec : Bool) : Nat → List Nat → State
  | _, [] => s
  | own, x :: xs =>
    takeSlots (takeFree s (allocKey slab part x) passage (own == 0) fixed spec) slab part passage fixed spec (own - 1) xs

/-- Allocate the slots of a range that are not held yet, adding the passage as holder of the others: the new state,
or none where the allocation must wait (R279, R280). -/
def allocate (s : State) (slab part : Nat) (slots : List Nat) (passage : Nat) (spec fixed : Bool) : Option State :=
  let new := slots.filter (fun x => !held s slab part x)
  match allocPlan s slab part new.length spec with
  | none => none
  | some (own, _) =>
    some (takeSlots (slots.foldl (fun t x => addHolder t (allocKey slab part x) passage spec) s) slab part passage fixed spec own new)

/-- The slots a byte range of a window touches. -/
def slotsOf (lo hi : Nat) : List Nat :=
  if hi ≤ lo then [] else (List.range ((hi - 1) / 65536 + 1 - lo / 65536)).map (· + lo / 65536)

/-- A code of host memory at a nibble place. -/
def hostCode (s : State) (nib fmt : Nat) : Nat :=
  if fmtBits fmt = 4 then fld (portNat s (nib / 2) 1) (3 + 4 * (nib % 2)) (4 * (nib % 2)) else portNat s (nib / 2) (fmtBits fmt / 8)
/-- Where element (r, c) of a matrix of `cols` columns lies from a base, in nibbles: every row fills whole bytes (R26). -/
def rowPlace (base cols fmt r c : Nat) : Nat :=
  let n := cols * fmtNibs fmt
  2 * base + r * (n + n % 2) + c * fmtNibs fmt

/-- A slot of a partition of frame buffers (R168, R255). -/
def isFrameSlot (s : State) (k : Nat) : Bool := (partOf s (k / 32768) (k / 1024 % 32)).kind == 5
/-- Release a slot: its bytes are unspecified from then on (R279). -/
def releaseSlot (s : State) (k : Nat) : State :=
  unitBack { s with staging := { s.staging with alloc := s.staging.alloc.filter (fun kv => kv.1 != k),
                                                bytes := s.staging.bytes.dropRange (k * 65536) 65536,
                                                epoch := s.staging.epoch + 1 } } 2 1

/-! Runs of elements in staging. -/

def Span.len (x : Span) : Nat := x.size * x.n
/-- Two runs have a nibble in common. -/
def Span.meets (a b : Span) : Bool :=
  a.slab == b.slab && a.part == b.part && decide (0 < a.len) && decide (0 < b.len) && decide (a.nib < b.nib + b.len) &&
    decide (b.nib < a.nib + a.len)
def meetsAny (a : Span) (l : List Span) : Bool := l.any a.meets
/-- The elements of a run that lie in their partition's window, each as a run. -/
def Span.elems (s : State) (x : Span) : List Span :=
  ((List.range x.n).map (fun i => { x with nib := x.nib + (x.size * i : Nat), n := 1 })).filter (fun y =>
    decide (0 ≤ y.nib) && decide ((y.nib.toNat + y.size + 1) / 2 ≤ windowBytes s y.slab y.part))
/-- The slots of its partition that a run touches, within the window. -/
def Span.slots (s : State) (x : Span) : List Nat :=
  if x.nib < 0 then [] else
  (slotsOf (x.nib.toNat / 2) ((x.nib.toNat + x.len + 1) / 2)).filter (fun k => decide (65536 * k < windowBytes s x.slab x.part))
/-- `n` elements of a row of a context, from a column on. -/
def Ctx.span (c : Ctx) (slab : Nat) (row : Int) (col n size : Nat) : Span :=
  { slab := slab, part := c.part, nib := 2 * ((c.offset : Int) + row * c.pitch) + (col * size : Nat), size := size, n := n }
/-- `n` bytes of a partition from an offset on. -/
def byteSpan (slab part off n : Nat) : Span := { slab := slab, part := part, nib := 2 * off, size := 2, n := n }

/-- The side tensor of a stream as a slab holds it, past every partition: what orders its writes and reads (R150, R195, log 57). -/
def sideSpan (slab stream : Nat) : Span := { slab := slab, part := 32 + stream, nib := 0, size := 1, n := 1 }
def sideSpans (s : State) (slab stream : Nat) : List Span :=
  if (outlierList s (streamOf s stream)).isEmpty then [] else [sideSpan slab stream]

/-! Groups and regions that a sump slot names (R89, R94, R97). -/

/-- Logical array and group number of a sump slot that is no combine. -/
def Slot.sumpArray (sl : Slot) : Nat := 8 * (sl.index - 88) + sl.bits 59 57
def Slot.group (sl : Slot) : Nat := sl.bits 56 51
def Slot.sumpKey (sl : Slot) : Nat := groupKey sl.sumpArray sl.group
def Slot.smask (sl : Slot) : List Nat := (List.range 8).filter (fun i => bitAt (sl.bits 59 52) i)
def Slot.amask (sl : Slot) : List Nat := (List.range 8).filter (fun i => bitAt (sl.bits 51 44) i)
/-- Participating arrays, in the order in which they join. -/
def Slot.participants (sl : Slot) : List Nat := sl.smask.flatMap (fun x => sl.amask.map (fun i => 8 * x + i))
/-- The destination array: the lowest of the array mask in the highest participating slab; array 0 where the mask names none. DESIGN
CHOICE: with an empty array mask R98 names no destination, and the check for open groups looks at array 0 (log 116). -/
def Slot.combineDest (sl : Slot) : Nat := 8 * (sl.smask.getLastD 0) + sl.amask.headD 0
def Slot.combineKeys (sl : Slot) : List Nat := sl.participants.map (fun a => groupKey a (sl.bits 43 38))
def Slot.destKey (sl : Slot) : Nat := groupKey sl.combineDest (sl.bits 37 32)
def combineMasked (s : State) (sl : Slot) : Bool :=
  blockMasked s (ctxOf s sl.passage (sl.bits 31 24)).mask (sl.bits 23 12) (sl.bits 11 0)

/-- Groups and regions whose chunks issued ahead a sump slot waits for (R94). -/
def Slot.orderKeys (s : State) (sl : Slot) : List Nat :=
  if sl.opcode = 7 then (if combineMasked s sl then [] else sl.destKey :: sl.combineKeys)
  else if 2 ≤ sl.opcode ∧ sl.opcode ≤ 5 then [sl.sumpKey] else []
/-- Chunks of a group or region that a stop keeps for a resume (R336). -/
def savedFor (s : State) (k : Nat) : List Chunk := (getArray s (k / 64)).saved.saved.filter (fun c => c.target == k % 64)
/-- A reload comes after a chunk where one of the two overwrites (R92, R94, R105). -/
def Slot.reloadAfter (s : State) (sl : Slot) (c : Chunk) : Bool := c.ow || (s.isZ64 && sl.bits 41 41 == 1)
/-- The first slot that waits for its unit is a sump slot that comes after chunks which a stop keeps: it cannot act before the array
goes on (R94, R336). -/
def headWaits (s : State) : Bool :=
  match s.psc.accepted with
  | sl :: _ => decide (88 ≤ sl.index) && decide (sl.index < 96) &&
      ((sl.orderKeys s).any (fun k => !(savedFor s k).isEmpty) ||
        (sl.opcode == 6 && (savedFor s sl.sumpKey).any (sl.reloadAfter s)))
  | [] => false

/-- A burst of a passage has chunks that a stop keeps: it has not finished (R193, R336). -/
def savedOps (s : State) (p : Nat) : List Op := s.sump.arrays.flatMap (fun kv => kv.2.saved.ops.filter (fun o => o.passage == p))

/-! Arrays and spares (R77): the physical array behind a logical one. -/

/-- Physical array of a logical array: its own, or its slab's spare. -/
def physOf (s : State) (a : Nat) : Nat :=
  if s.isZ64 then
    match List.lookup (a / 8) s.ras.spareFor with
    | some x => if x = a % 8 then 9 * (a / 8) + 8 else 9 * (a / 8) + a % 8
    | none => 9 * (a / 8) + a % 8
  else a
/-- An array has a fault in hand that must be localised or retired before it runs on (R329, R337). -/
def arrayHeld (s : State) (a : Nat) : Bool :=
  s.ras.locPend.any (fun x => x.1 == physOf s a) || s.ras.retPend.any (fun e => e.array == physOf s a)
/-- The array is failed (R76). -/
def arrayFailed (s : State) (a : Nat) : Bool := s.ras.failed.contains a

end Sys2Proof.Machine
end

