-- ==== Sys2Proof/Machine/Flags.lean ====
section
/-! DEFINITION. What conversions set: statistics of streams, the tile check and its second conversion, calibration
counters, and the events of undeclared consumers (R137 to R148, R173). -/

namespace Sys2Proof.Machine

def u32max : Nat := 2 ^ 32 - 1

/-- Count one conversion of `y`, converted as `v` (R137, R138). -/
def StreamStat.conv (t : StreamStat) (fmt : Nat) (y v : Dy) (c : Conv) : StreamStat :=
  { t with bins := t.bins.upd 0 (histBin fmt v) (fun n => satNat u32max n 1),
           clipped := satNat u32max t.clipped (if c.clipped then 1 else 0),
           under := satNat u32max t.under (if c.under then 1 else 0),
           amax := BitVec.ofNat 32 (max t.amax.toNat (amaxF32 y)) }

/-- Add quantities: counts by saturating sums, amax by maximum (R137, R139); `top` bounds the counts. -/
def StreamStat.merge (top : Nat) (a b : StreamStat) : StreamStat :=
  { bins := b.bins.foldl (fun t kv => t.upd 0 kv.1 (fun n => satNat top n kv.2)) a.bins,
    clipped := satNat top a.clipped b.clipped, under := satNat top a.under b.under,
    nonfin := satNat top a.nonfin b.nonfin, tiles := satNat top a.tiles b.tiles, jit := satNat top a.jit b.jit,
    amax := BitVec.ofNat 32 (max a.amax.toNat b.amax.toNat) }

/-- Conversions counted. -/
def StreamStat.total (t : StreamStat) : Nat := (t.bins.map (·.2)).foldl (· + ·) 0
/-- The headroom of a record (R139). -/
def StreamStat.headroom (t : StreamStat) : Nat :=
  let b := fun i => Tab.get 0 t.bins i
  if b 1 != 0 then 0
  else match (List.range 38).find? (fun d => b (2 + d) != 0) with
    | some d => d
    | none => 0

/-- Add quantities to a stream: to the carry for a UPD passage, else to the step's own (R137). -/
def tally (s : State) (upd : Bool) (stream : Nat) (t : StreamStat) : State :=
  if stream = 0xFFFF then s
  else if upd then
    { s with gov := { s.gov with carry := s.gov.carry.upd StreamStat.zero stream (fun x => x.merge u32max t) } }
  else { s with gov := { s.gov with loc := s.gov.loc.upd StreamStat.zero stream (fun x => x.merge u32max t) } }

/-- Count non-finite inputs of a stream (R24, R137). -/
def tallyNonfin (s : State) (upd : Bool) (stream n : Nat) : State :=
  if n = 0 then s else tally s upd stream { StreamStat.zero with nonfin := n }

/-- Count non-finite elements that a slot of a passage reads: at once, or, while the passage is speculative, with its commit, so
that an undo leaves every statistic as it was (R207). -/
def tallyRead (s : State) (p stream n : Nat) : State :=
  let x := getPassage s p
  if x.spec then (if n = 0 then s else setPassage s p { x with nonfin := x.nonfin ++ [(stream, n)] })
  else tallyNonfin s ((pentry s p).cls == 4) stream n
/-- The reads of a speculative passage count once it commits. -/
def settleReads (s : State) (p : Nat) : State :=
  let x := getPassage s p
  x.nonfin.foldl (fun t e => tallyNonfin t ((pentry s p).cls == 4) e.1 e.2) (setPassage s p { x with nonfin := [] })

/-- The adjustment a checked tile gets, none where it is not re-quantised (R144). -/
def tileDelta (fmt : Nat) (sigma : Int) (n c u : Nat) (amax : Nat) : Option Int :=
  if 1024 * c > n ∨ 16 * u > n then
    let d := clampScale (fitExp fmt (ofF32 amax) - sigma)
    if d = 0 then none else some d
  else none

/-- An element to convert: its place, its exact value, and its 24 random bits in stochastic mode. -/
structure Elem where
  key : Nat
  y   : Dy
  r   : Option Nat
  deriving DecidableEq, Repr

/-- A converted tile: its δ, whether it was converted again, the conversions, the places the first conversion
clipped, and what it counts (R144 to R146, R148). -/
structure TileOut where
  delta   : Int
  requant : Bool
  convs   : List (Nat × Conv)
  clips   : List Nat
  stat    : StreamStat
  deriving DecidableEq, Repr

def convertAll (fmt : Nat) (scale : Int) (es : List Elem) : List (Nat × Conv) :=
  es.map (fun e => (e.key, convert fmt (Dy.scale e.y scale) e.r))
def statAll (fmt : Nat) (scale : Int) (es : List Elem) (cs : List (Nat × Conv)) : StreamStat :=
  (List.zip es cs).foldl (fun t ec => t.conv fmt ec.1.y (Dy.scale ec.1.y scale) ec.2.2) StreamStat.zero

/-- Convert a tile at σ, check it where its stream is checked, and convert it again where the check fails. -/
def convertTile (fmt : Nat) (sigma : Int) (checked : Bool) (es : List Elem) : TileOut :=
  let first := convertAll fmt sigma es
  let clips := (first.filter (fun c => c.2.clipped)).map (·.1)
  let st := statAll fmt sigma es first
  let fin := fun (t : StreamStat) (re : Bool) =>
    { t with tiles := if checked then 1 else 0, jit := if re then 1 else 0 }
  match if checked then tileDelta fmt sigma es.length st.clipped st.under st.amax.toNat else none with
  | none => { delta := 0, requant := false, convs := first, clips := clips, stat := fin st false }
  | some d =>
    let second := convertAll fmt (sigma + d) es
    { delta := d, requant := true, convs := second, clips := clips, stat := fin (statAll fmt (sigma + d) es second) true }

/-- Count a re-quantised tile, and raise `jit_requant` for the first of a stream in a step (R146, R347). -/
def noteJit (s : State) (stream : Nat) (out : TileOut) : State :=
  if out.requant then
    countLife (raiseOnceStep s 3 Ev.jitRequant stream (BitVec.ofNat 24 (stream % 4096 * 2 ^ 12 + lowBits 8 out.delta))) 12 1
  else s

/-- Channels that a rescale table is described with (R147). -/
def rescaleCount (s : State) (t : Nat) : Nat := smpReg s (0x060008 + 16 * t) % 2 ^ 19
/-- Count a clipped element of a channel that a rescale table has, and raise `calibration_exceeded` for the first channel
past the threshold in the step (R148). -/
def calibrate (s : State) (table channel : Nat) : State :=
  if rescaleCount s table ≤ channel then s else
  let k := table * 2 ^ 18 + channel
  let n := satNat 65535 (Tab.get 0 s.gov.calib k) 1
  let t := { s with gov := { s.gov with calib := s.gov.calib.put k n } }
  let thr := smpReg s (0x06000C + 16 * table)
  if thr != 0 && decide (n > thr) then
    raiseOnceStep t 3 Ev.calibrationExceeded table (BitVec.ofNat 24 (table * 2 ^ 18 + channel))
  else t

/-- Raise `consumer_undeclared` once per passage, from the unit that draws (R173, R308). -/
def noteUndeclared (s : State) (source passage kind index port : Nat) : State :=
  raiseOncePassage s source Ev.consumerUndeclared passage
    (BitVec.ofNat 24 (kind * 2 ^ 22 + index % 64 * 2 ^ 16 + port % 256 * 2 ^ 8))

/-- Raise one event per passage with the passage in its payload. -/
def notePassage (s : State) (source code passage : Nat) (payload : BitVec 24) : State :=
  raiseOncePassage s source code passage payload
/-- `context_invalid`, once per passage (R192). -/
def noteContext (s : State) (passage : Nat) : State :=
  raiseOpenPassage s 2 Ev.contextInvalid passage
/-- `staging_bound`, once per passage (R187, R308). -/
def noteStaging (s : State) (slab array passage : Nat) : State :=
  notePassage s (0x10 + slab) Ev.stagingBound passage (BitVec.ofNat 24 (array % 8 * 2 ^ 21 + passage % 4096 * 2 ^ 9))

/-- The source id of a slab (R306). -/
def slabSource (slab : Nat) : Nat := 0x10 + slab

/-- Write one δ of a side table. The header goes with every tile: its bytes are the same for all tiles of the step,
so it stands from the first tile written on (R141). `place` and `pitch` say where the tensor lies (log 8). -/
def writeSide (s : State) (side place pitch tile : Nat) (sigma delta : Int) : State :=
  if side = 0 then s else
  let s := { s with gov := { s.gov with sides := s.gov.sides.put side (place, pitch) } }
  portWrite (portWrite s side ([BitVec.ofNat 8 (lowBits 8 sigma), 0, 0, 0] ++ leBytes 4 s.psc.step.toNat))
    (side + 8 + tile) [BitVec.ofNat 8 (lowBits 8 delta)]

end Sys2Proof.Machine
end

