-- ==== Sys2Proof/Machine/Crypto.lean ====
section
/-! DEFINITION. Pure Ed25519 verification with SHA-512 (R175; log 12). -/

namespace Sys2Proof.Machine

/-! SHA-512, on 64-bit words. -/

/-- `x` is prime, for small `x`. -/
def isPrime (x : Nat) : Bool := decide (2 ≤ x) && (List.range (x - 2)).all (fun i => x % (i + 2) != 0)
/-- The first 80 primes. -/
def primes80 : List Nat := (List.range 410).filter isPrime
/-- The first 64 fractional bits of a prime's square root. -/
def shaInit : List Dword := (primes80.take 8).map (fun p => BitVec.ofNat 64 (rootBits 2 (p * 2 ^ 128) 70 0))
/-- The first 64 fractional bits of a prime's cube root. -/
def shaConst : List Dword := primes80.map (fun p => BitVec.ofNat 64 (rootBits 3 (p * 2 ^ 192) 70 0))

/-- The big-endian number of a byte string. -/
def beNat (bs : List Byte) : Nat := bs.foldl (fun x b => 256 * x + b.toNat) 0

/-- The message padded to whole 128-byte blocks. -/
def shaPad (msg : List Byte) : List Byte :=
  let n := msg.length
  msg ++ [0x80] ++ List.replicate ((239 - n % 128) % 128) 0 ++ (leBytes 16 (8 * n)).reverse

/-- The block's sixteen words, last first, extended to eighty by the message schedule. -/
def shaExtend : Nat → List Dword → List Dword
  | 0, ws => ws
  | n + 1, ws =>
    let w15 := ws.getD 14 0
    let w2 := ws.getD 1 0
    let s0 := w15.rotateRight 1 ^^^ w15.rotateRight 8 ^^^ (w15 >>> 7)
    let s1 := w2.rotateRight 19 ^^^ w2.rotateRight 61 ^^^ (w2 >>> 6)
    shaExtend n ((ws.getD 15 0 + s0 + ws.getD 6 0 + s1) :: ws)

/-- One round, on the eight working words. -/
def shaRound (v : List Dword) (kw : Dword) : List Dword :=
  match v with
  | [a, b, c, d, e, f, g, h] =>
    let s1 := e.rotateRight 14 ^^^ e.rotateRight 18 ^^^ e.rotateRight 41
    let ch := (e &&& f) ^^^ (~~~e &&& g)
    let t1 := h + s1 + ch + kw
    let s0 := a.rotateRight 28 ^^^ a.rotateRight 34 ^^^ a.rotateRight 39
    let maj := (a &&& b) ^^^ (a &&& c) ^^^ (b &&& c)
    [t1 + s0 + maj, a, b, c, d + t1, e, f, g]
  | _ => v

/-- Process one block. -/
def shaBlock (ks h : List Dword) (block : List Byte) : List Dword :=
  let w := (List.range 16).map (fun i => BitVec.ofNat 64 (beNat ((block.drop (8 * i)).take 8)))
  let ws := (shaExtend 64 w.reverse).reverse
  List.zipWith (· + ·) h ((List.zipWith (· + ·) ks ws).foldl shaRound h)

/-- Process the blocks in order. -/
def shaBlocks (ks : List Dword) : Nat → List Dword → List Byte → List Dword
  | 0, h, _ => h
  | n + 1, h, bs => shaBlocks ks n (shaBlock ks h (bs.take 128)) (bs.drop 128)

/-- SHA-512 as a byte string. -/
def sha512 (msg : List Byte) : List Byte :=
  let p := shaPad msg
  (shaBlocks shaConst (p.length / 128) shaInit p).flatMap (fun w => (leBytes 8 w.toNat).reverse)

/-! The curve. -/

def edP : Nat := 2 ^ 255 - 19
/-- The group order. -/
def edL : Nat := 2 ^ 252 + 27742317777372353535851937790883648493

/-- `x^n mod p`, for `n` below `2^bits`, from its high bit downward. -/
def powMod (p x n : Nat) : Nat → Nat
  | 0 => 1
  | b + 1 => let r := powMod p x (n / 2) b; if n % 2 = 1 then r * r % p * x % p else r * r % p
def edInv (x : Nat) : Nat := powMod edP x (edP - 2) 255
/-- The curve constant d = −121665/121666. -/
def edD : Nat := (edP - 121665) * edInv 121666 % edP
def edSqrtM1 : Nat := powMod edP 2 ((edP - 1) / 4) 255

/-- A point in projective coordinates. -/
structure EdPoint where
  x : Nat
  y : Nat
  z : Nat
  deriving DecidableEq, Repr

def edZero : EdPoint := ⟨0, 1, 1⟩
/-- Complete addition on −x² + y² = 1 + d x² y². -/
def edAdd (p q : EdPoint) : EdPoint :=
  let a := p.z * q.z % edP
  let b := a * a % edP
  let c := p.x * q.x % edP
  let d := p.y * q.y % edP
  let e := edD * c % edP * d % edP
  let f := (b + edP - e) % edP
  let g := (b + e) % edP
  let h := ((p.x + p.y) * (q.x + q.y) + 2 * edP * edP - c - d) % edP
  ⟨a * f % edP * h % edP, a * g % edP * ((d + c) % edP) % edP, f * g % edP⟩
/-- Scalar multiple, for a scalar below `2^bits`, from its high bit downward. -/
def edMul (p : EdPoint) (n : Nat) : Nat → EdPoint
  | 0 => edZero
  | b + 1 =>
    let r := edMul p (n / 2) b
    let r2 := edAdd r r
    if n % 2 = 1 then edAdd r2 p else r2
def edEq (p q : EdPoint) : Bool := p.x * q.z % edP == q.x * p.z % edP && p.y * q.z % edP == q.y * p.z % edP

/-- Decode a point (RFC 8032, 5.1.3): none where it does not decode. -/
def edDecode (bs : List Byte) : Option EdPoint :=
  let w := leNat bs
  let y := w % 2 ^ 255
  let sgn := w / 2 ^ 255 % 2
  if bs.length ≠ 32 ∨ edP ≤ y then none else
  let u := (y * y + edP - 1) % edP
  let v := (edD * (y * y % edP) + 1) % edP
  let v3 := v * v % edP * v % edP
  let v7 := v3 * v3 % edP * v % edP
  let x := u * v3 % edP * powMod edP (u * v7 % edP) ((edP - 5) / 8) 255 % edP
  let vx2 := v * (x * x % edP) % edP
  let root : Option Nat :=
    if vx2 = u then some x else if (vx2 + u) % edP = 0 then some (x * edSqrtM1 % edP) else none
  match root with
  | none => none
  | some r =>
    if r = 0 ∧ sgn = 1 then none
    else some ⟨if r % 2 = sgn then r else edP - r, y, 1⟩

/-- The base point, of y = 4/5 and even x. -/
def edBase : EdPoint := (edDecode (leBytes 32 (4 * edInv 5 % edP))).getD edZero

/-- Verify a signature of 64 bytes over a message: [8][S]B = [8]R + [8][k]A (R175, log 12). -/
def edVerify (key msg sig : List Byte) : Bool :=
  let s := leNat (sig.drop 32)
  match edDecode key, edDecode (sig.take 32) with
  | some a, some r =>
    if sig.length ≠ 64 ∨ edL ≤ s then false
    else
      let k := leNat (sha512 (sig.take 32 ++ key ++ msg)) % edL
      edEq (edMul (edMul edBase s 256) 8 4) (edAdd (edMul r 8 4) (edMul (edMul a k 256) 8 4))
  | _, _ => false

end Sys2Proof.Machine
end

