-- ==== Sys2Proof/Machine/RlpBase.lean ====
section
/-! DEFINITION. Ranks, frames as byte strings, and the transmit queues of the collective port (R250, R253, R254, R260,
R267). -/

namespace Sys2Proof.Machine

/-! The fixed tree over system ranks (R260). -/

def rlpRank (s : State) : Nat := smpReg s 0x210000 % 65536
def rlpRanks (s : State) : Nat := smpReg s 0x210004
def isRoot (s : State) : Bool := rlpRank s == 0
def treeParent (s : State) : Nat := (rlpRank s - 1) / 2
def treeChildren (s : State) : List Nat :=
  [2 * rlpRank s + 1, 2 * rlpRank s + 2].filter (fun r => decide (r < rlpRanks s))
/-- A channel is in service, and so is the port (R267, R321). -/
def rlpServes (s : State) (ch : Nat) : Bool := !(getRlp s ch).retired && (getRlp s ch).rx != 0
def portServes (s : State) : Bool := s.boot.rlpVer != 0 && (rlpServes s 0 || rlpServes s 1)
def sysCfg (s : State) : Nat := smpReg s 0x210010

/-! Frames (R253). -/

def Frame.header (f : Frame) (step : Nat) : List Byte :=
  leBytes 1 f.typ ++ leBytes 1 f.fver ++ leBytes 1 f.group ++ leBytes 1 f.attempt ++ leBytes 2 f.src ++ leBytes 2 f.dst ++
    leBytes 8 step ++ leBytes 4 f.pseq ++ leBytes 4 f.tile ++ leBytes 2 f.tensor ++ leBytes 1 f.fmt ++ leBytes 1 f.level ++
    leBytes 4 f.payload.length ++ leBytes 4 f.cfg ++ List.replicate 12 0
/-- Header, payload and CRC. -/
def Frame.bytes (f : Frame) : List Byte :=
  let b := f.header f.step ++ f.payload
  b ++ leBytes 4 (crc32c b).toNat
/-- The frame a byte string spells, by its length field. -/
def Frame.ofBytes (b : List Byte) : Frame :=
  { typ := fieldAt b 0 1, fver := fieldAt b 1 1, group := fieldAt b 2 1, attempt := fieldAt b 3 1, src := fieldAt b 4 2,
    dst := fieldAt b 6 2, step := fieldAt b 8 8, pseq := fieldAt b 0x10 4, tile := fieldAt b 0x14 4,
    tensor := fieldAt b 0x18 2, fmt := fieldAt b 0x1A 1, level := fieldAt b 0x1B 1, cfg := fieldAt b 0x20 4,
    payload := slice b 48 (48 + fieldAt b 0x1C 4),
    reserved :=
      let t := fieldAt b 0 1
      let sys := decide (4 ≤ t ∧ t ≤ 6)
      decide (2 ^ 40 ≤ fieldAt b 8 8) || !allZero (slice b 0x24 0x30) ||
        (sys && ((if t = 5 then fieldAt b 0x14 4 != 0 else decide (4 ≤ fieldAt b 0x14 4)) || fieldAt b 0x18 2 != 0)) ||
        (t == 6 && decide (4 ≤ fieldAt b 0x1C 4) && fieldAt b 49 3 != 0) }
/-- The trailing CRC is right. -/
def frameCrcOk (b : List Byte) : Bool :=
  let n := 48 + fieldAt b 0x1C 4
  decide (n + 4 ≤ b.length) && fieldAt b n 4 == (crc32c (b.take n)).toNat

/-! Transmit queues: 16 frames per channel, then a backlog that enters as room frees (R250, R267). A queue entry
carries the number of the operation it belongs to, 0 for none. -/

/-- The channel that carries what channel `ch` was to carry: the other one once `ch` has no lane left. -/
def sendChannel (s : State) (ch : Nat) : Nat :=
  if !rlpServes s ch && rlpServes s (1 - ch) then 1 - ch else ch
def queueRoom (s : State) (ch : Nat) : Bool := decide ((getRlp s (sendChannel s ch)).queue.length < 16)
/-- Move waiting frames of a channel into its queue. -/
def refillQueue (s : State) (ch : Nat) : State :=
  let c := getRlp s ch
  let mine := s.rlp.backlog.filter (fun x => x.1 == ch)
  let n := 16 - c.queue.length
  let t := setRlp s ch { c with queue := c.queue ++ (mine.take n).map (fun x => (x.2.1, x.2.2)) }
  { t with rlp := { t.rlp with backlog := s.rlp.backlog.filter (fun x => x.1 != ch) ++ mine.drop n } }

/-- The key of a sender or receiver of a group (R255). -/
def seqKey (group peer : Nat) : Nat := group * 65536 + peer
/-- Number a frame and put it into a channel's queue. -/
def queueFrame (s : State) (ch op : Nat) (f : Frame) : State :=
  let k := seqKey f.group f.dst
  let n := Tab.get 0 s.rlp.sent k
  let c := sendChannel s ch
  refillQueue { s with rlp := { s.rlp with sent := s.rlp.sent.put k (n + 1),
                                           backlog := s.rlp.backlog ++ [(c, op, { f with pseq := n })] } } c

/-- A statistics, abort or outcome frame to a system rank (R253, R254). -/
def sysFrame (s : State) (typ dst tile : Nat) (payload : List Byte) : Frame :=
  { typ := typ, fver := 2, group := 0xFF, attempt := s.psc.attempt.toNat, src := rlpRank s, dst := dst,
    step := s.psc.step.toNat, pseq := 0, tile := tile, tensor := 0, fmt := 0, level := 0, cfg := sysCfg s,
    payload := payload }
/-- Send an outcome frame to every child (R261). -/
def sendOutcome (s : State) (tile : Nat) (payload : List Byte) : State :=
  (treeChildren s).foldl (fun t r => queueFrame t 0 0 (sysFrame t 6 r tile payload)) s

end Sys2Proof.Machine
end

