-- ==== Sys2Proof/Machine/Groups.lean ====
section
/-! DEFINITION. Reduction groups: headers, member and tensor arrays, validation, owners and tiles (R245 to R248,
R255). -/

namespace Sys2Proof.Machine

/-- A group header. -/
structure RGroup where
  version  : Nat
  mode     : Nat
  valid    : Bool
  size     : Nat
  self_    : Nat
  ntensors : Nat
  members  : Nat
  tensors  : Nat
  kmax     : Nat
  cfg      : Nat
  reserved : Bool
  deriving DecidableEq, Repr

def RGroup.ofBytes (b : List Byte) : RGroup :=
  { version := fieldAt b 0 2, mode := fieldAt b 2 1, valid := bitAt (fieldAt b 3 1) 0, size := fieldAt b 4 4,
    self_ := fieldAt b 8 2, ntensors := fieldAt b 0xC 2, members := addr52 (fieldAt b 0x10 8),
    tensors := addr52 (fieldAt b 0x18 8), kmax := fieldAt b 0x20 4, cfg := fieldAt b 0x24 4,
    reserved := decide (2 ≤ fieldAt b 3 1) || !allZero (slice b 0xA 0xC) || !allZero (slice b 0xE 0x10) ||
      addrHigh (fieldAt b 0x10 8) || addrHigh (fieldAt b 0x18 8) || decide (2 ^ 17 ≤ fieldAt b 0x20 4) ||
      !allZero (slice b 0x28 0x40) }

def groupAddr (s : State) (g : Nat) : Nat := smpPair s 0x210018 + 64 * g
def rgroup (s : State) (g : Nat) : RGroup := RGroup.ofBytes (smpBytes s (groupAddr s g) 64)
def RGroup.sparse (h : RGroup) : Bool := h.mode == 1

/-- A member entry: rank and declared version. -/
def memberWord (s : State) (h : RGroup) (i : Nat) : Nat := smpNat s (h.members + 4 * i) 4
def memberRank (s : State) (h : RGroup) (i : Nat) : Nat := fld (memberWord s h i) 15 0
def memberVer (s : State) (h : RGroup) (i : Nat) : Nat := fld (memberWord s h i) 17 16

/-- A tensor entry (R246). -/
structure GTensor where
  tensor  : Nat
  gstream : Nat
  rstream : Nat
  anchor  : Int
  rows    : Nat
  cols    : Nat
  base    : Nat
  mask    : Nat
  dest    : Nat
  reserved : Bool
  deriving DecidableEq, Repr

def GTensor.ofBytes (b : List Byte) : GTensor :=
  { tensor := fieldAt b 0 2, gstream := fieldAt b 2 2, rstream := fieldAt b 4 2, anchor := signed 10 (fieldAt b 6 2),
    rows := fieldAt b 8 4, cols := fieldAt b 0xC 4, base := fieldAt b 0x10 4, mask := fieldAt b 0x14 2,
    dest := addr52 (fieldAt b 0x18 8),
    reserved := decide (2 ^ 10 ≤ fieldAt b 6 2) || fieldAt b 0x16 2 != 0 || addrHigh (fieldAt b 0x18 8) }
def gtensor (s : State) (h : RGroup) (i : Nat) : GTensor := GTensor.ofBytes (smpBytes s (h.tensors + 32 * i) 32)
def gtensors (s : State) (h : RGroup) : List GTensor := (List.range h.ntensors).map (gtensor s h)

/-- Blocks of a row of the grid, and tiles of the grid (R111). -/
def GTensor.bcols (x : GTensor) : Nat := ceilDiv x.cols 256
def GTensor.tiles (x : GTensor) : Nat := ceilDiv x.rows 256 * x.bcols
/-- The tile of a group tile index: tensor index, tensor, tile within it (R247). -/
def tileOf (s : State) (h : RGroup) (u : Nat) : Option (Nat × GTensor × Nat) :=
  ((List.range h.ntensors).map (fun i => (i, gtensor s h i))).findSome? (fun ix =>
    if ix.2.base ≤ u ∧ u < ix.2.base + ix.2.tiles then some (ix.1, ix.2, u - ix.2.base) else none)
/-- Slab that adds an owned tile (R247). -/
def tileSlab (s : State) (h : RGroup) (u : Nat) : Nat := u / h.size % s.slabs
/-- Owned tiles of a tensor below tile `t`: the place of tile `t` at dest. -/
def ownedBefore (h : RGroup) (x : GTensor) (t : Nat) : Nat :=
  ((List.range t).filter (fun j => (x.base + j) % h.size == h.self_)).length
/-- A tile that the mask masks (R123). -/
def tileMasked (s : State) (x : GTensor) (t : Nat) : Bool := blockMasked s x.mask (t / x.bcols) (t % x.bcols)

def elemBytes (f : Nat) : Nat := ceilDiv (fmtBits f) 8
/-- Staging slots of a group's frame buffers (R255). -/
def groupSlots (s : State) (h : RGroup) : Nat :=
  if h.sparse then
    let size := (gtensors s h).foldl (fun n x => max n (elemBytes (streamOf s x.gstream).fmt)) 1
    h.size * ceilDiv (60 + h.kmax * (2 + size)) 65536
  else log2Up h.size * ceilDiv 262196 65536
/-- Slots of the buffers that all groups share: three for statistics and outcomes, eight for gathers. -/
def sharedSlots : Nat := 3 * ceilDiv 372796 65536 + 8 * ceilDiv 262196 65536
/-- Slots of all kind-`0x05` partitions of the variant in force. -/
def frameSlots (s : State) : Nat :=
  ((List.range (32 * s.slabs)).map (fun i => let p := partOf s (i / 32) (i % 32); if p.kind = 5 then p.slots else 0)).foldl
    (· + ·) 0

/-- Group tile ranges do not overlap. -/
def tilesDisjoint : List GTensor → Bool
  | [] => true
  | x :: xs => xs.all (fun y => decide (x.base + x.tiles ≤ y.base) || decide (y.base + y.tiles ≤ x.base)) && tilesDisjoint xs

def GTensor.ok (x : GTensor) (sparse : Bool) : Bool :=
  !x.reserved && decide (x.tensor < 1024) && decide (1 ≤ x.rows) && decide (x.rows ≤ 2 ^ 20) && decide (1 ≤ x.cols) &&
    decide (x.cols ≤ 2 ^ 20) && decide (x.base + x.tiles ≤ 2 ^ 32) && (sparse || x.gstream == 0xFFFF)

/-- The checks of R248 but for the frame buffers. -/
def RGroup.ok (s : State) (h : RGroup) : Bool :=
  !h.reserved && h.version == 1 && (h.mode == 1 || h.mode == 2) && decide (1 ≤ h.size) && decide (h.size ≤ 65536) &&
    decide (h.self_ < h.size) && decide (1 ≤ h.ntensors) && decide (h.ntensors ≤ 1024) &&
    (if h.sparse then decide (1 ≤ h.kmax) && decide (h.kmax ≤ 65536) else h.kmax == 0) &&
    (List.range h.size).all (fun i => decide (memberWord s h i < 2 ^ 18) && (memberVer s h i == 1 || memberVer s h i == 2)) &&
    (gtensors s h).all (fun x => x.ok h.sparse) && tilesDisjoint (gtensors s h) &&
    h.cfg == (crc32c (smpBytes s h.members (4 * h.size) ++ smpBytes s h.tensors (32 * h.ntensors))).toNat &&
    !(h.sparse && (s.boot.rlpVer == 1 || (List.range h.size).any (fun i => memberVer s h i == 1))) &&
    !(decide (1 < h.size) && s.boot.rlpVer == 0) && memberRank s h h.self_ == rlpRank s

/-- Groups in ascending order with the running sum of their frame buffers: those that pass, and those that fail. -/
def checkGroups (s : State) : List Nat → Nat → Bool → List Nat × List Nat
  | [], _, _ => ([], [])
  | g :: gs, used, full =>
    let h := rgroup s g
    if !h.valid then checkGroups s gs used full
    else if !h.ok s then let r := checkGroups s gs used full; (r.1, g :: r.2)
    else
      let n := used + groupSlots s h
      if full || decide (frameSlots s < n + sharedSlots) then let r := checkGroups s gs n true; (r.1, g :: r.2)
      else let r := checkGroups s gs n false; (g :: r.1, r.2)

/-- The passage number that stands for work of the collective port among the holders of a slot. -/
def ownerHolder : Nat := 4096
/-- Give back every slot of a frame buffer. -/
def dropBuffers (s : State) : State :=
  (s.staging.alloc.filter (fun kv => isFrameSlot s kv.1)).foldl (fun t kv => releaseSlot t kv.1) s
/-- Hold the slots of the frame buffers that the valid groups and the block need, of the kind-`0x05` partitions in ascending order, for
as long as the variant is in force (R255, R279, log 77). -/
def takeBuffers (s : State) : State :=
  let n := (s.rlp.groups.map (fun g => groupSlots s (rgroup s g))).foldl (· + ·) sharedSlots
  let all := (List.range (32 * s.slabs)).flatMap (fun i =>
    let p := partOf s (i / 32) (i % 32)
    if p.kind = 5 then (List.range p.slots).map (fun x => allocKey (i / 32) (i % 32) x) else [])
  (all.take n).foldl (fun t k => if (allocOf t k).isSome then t else takeFree t k ownerHolder false true false) s

/-- A member array, and a tensor array, with a non-zero reserved field; a count out of range gives no array to read (R14, R246). -/
def RGroup.membersReserved (s : State) (h : RGroup) : Bool :=
  decide (h.size ≤ 65536) && (List.range h.size).any (fun i => decide (2 ^ 18 ≤ memberWord s h i))
def RGroup.tensorsReserved (s : State) (h : RGroup) : Bool :=
  decide (h.ntensors ≤ 1024) && (gtensors s h).any (·.reserved)
/-- The entries of an array that a window's edge cuts; a count past its limit gives no array to read (R246, R252). -/
def noteEntries (s : State) (a width n limit : Nat) : State :=
  if limit < n then s else (List.range n).foldl (fun t i => noteTable t (a + width * i) width) s
/-- `reserved_write` for the header and each array of a valid group that holds a non-zero reserved field: one per structure (R14,
log 109). -/
def noteRgroup (s : State) (g : Nat) : State :=
  let h := rgroup s g
  if !h.valid then s else
  let s := noteTable s (groupAddr s g) 64
  let s := noteEntries (noteEntries s h.members 4 h.size 65536) h.tensors 32 h.ntensors 1024
  let one := fun (t : State) (bad : Bool) (a : Nat) => if bad then reservedRead t 5 a else t
  one (one (one s h.reserved (groupAddr s g)) (h.membersReserved s) h.members) (h.tensorsReserved s) h.tensors

/-- Read the group table at step start: `group_invalid` for each group that fails (R248). -/
def readGroups (s : State) : State :=
  let r := checkGroups s (List.range 64) 0 false
  let s := (List.range 64).foldl noteRgroup s
  let s := r.2.foldl (fun t g => raise t 5 Ev.groupInvalid (pack [(6, g)])) s
  takeBuffers (dropBuffers { s with rlp := { s.rlp with groups := r.1 } })

end Sys2Proof.Machine
end

