-- ==== Sys2Proof/Machine/Startup.lean ====
section
/-! DEFINITION. Reset, the start-up stages and port negotiation (R313 to R326, R395). -/

namespace Sys2Proof.Machine

def setStage (s : State) (st : BitVec 4) : State := { s with boot := { s.boot with stage := st } }

/-- A stage fails (R324): payload code, stage, and for code 3 the memory and slab in the low bits (log 22). -/
def bootFail (s : State) (code : BitVec 8) (low : Nat) : State :=
  raise { s with boot := { s.boot with stage := 0xF, fail := code } } 6 Ev.bootFailed
    (BitVec.ofNat 24 (code.toNat * 2 ^ 16 + s.boot.stage.toNat * 2 ^ 12 + low % 2 ^ 12))

/-- Every record, counter, plane, key and register at its reset value (R313); what the surroundings hold, the silicon
and the queue stay. Core memories are undefined from then on (R315, log 3). -/
def toReset (s : State) (pins : Pins) : State :=
  let t := State.atReset { s.silicon with dieId := 0, fuseMap := [] } pins s.hostMem [] s.freeCtr s.pending
  { t with boot := { t.boot with coreEpoch := s.boot.coreEpoch + 1 },
           staging := { t.staging with epoch := s.staging.epoch + 1 } }

/-- `rst_n` falls (R313). -/
def rstFall (s : State) : State :=
  toReset s { s.pins with rstN := false, applyOut := false, rampReq := false }

/-- `rst_n` rises: stage 0x1 begins (R314), also after the test hold of R395. A `droop_n` that is low then pauses issue (R358, log 27). -/
def rstRise (s : State) : State :=
  if s.pins.rstN then s
  else setStage { s with pins := { s.pins with rstN := true }, pwr := { s.pwr with paused := !s.pins.droopN } } 1

/-- The wrapper with `test_en` at 0: an instruction that needs it acts as WS_BYPASS (R395). -/
def Wrapper.untested (w : Wrapper) : Wrapper :=
  if w.wir = 0x01 ∨ w.wir = 0x02 ∨ w.wir = 0x10 ∨ w.wir = 0x12 then { w with wir := 0, shown := 0, drive := none } else w
/-- `test_en` changes. While `rst_n` is high, the engine enters stage 0x0 as if `rst_n` had fallen, and stays there
until `rst_n` has been low (R395). -/
def testEnChange (s : State) : State :=
  if s.pins.rstN then
    let t := toReset s { s.pins with testEn := !s.pins.testEn, applyOut := false, rampReq := false }
    { t with boot := { t.boot with testHold := true } }
  else { s with pins := { s.pins with testEn := !s.pins.testEn },
                wrap := if s.pins.testEn then s.wrap.untested else s.wrap }

def domainRelease (s : State) : State := if s.boot.stage = 1 then setStage s 2 else s

/-- The fuse map leaves every array at least half of each kind of spare (R53). -/
def fuseSparesOk (s : State) : Bool :=
  (List.range s.silicon.cls.physArrays).all (fun a =>
    decide (s.silicon.cls.spares / 2 ≤ fieldSpares s a false) && decide (s.silicon.cls.spares / 2 ≤ fieldSpares s a true))

def setTrims (s : State) : Nat → List Word → State
  | _, [] => s
  | n, w :: ws => if n < 4 then setTrims (setLive s (0x000030 + 4 * n) w) (n + 1) ws else s

/-- Log, mailboxes and interrupt controller are clear; a source that was high sets pend when it rises again (R301, R314). -/
def clearRecords (s : State) : State :=
  let t := sampleLevels { s with
    evt := { s.evt with ring := [], head := 0, tail := 0 }, mbx := [],
    intc := { s.intc with pend := 0, act := 0, atgt := [], pulse := 0, held := [], modr := 0, grace := [], sw := 0 } }
  { t with intc := { t.intc with pend := 0 } }
/-- What the fuse stage reads is what stands in the fuses: their bits, and of bits that were read before the same contents (R395,
log 5). -/
def fuseAgrees (s : State) (f : FuseRead) : Bool :=
  f.bits == s.silicon.fuseBits && s.silicon.fuseSeen.all (fun g => g.bits != f.bits || g == f)
/-- What the bits have been read as stays (log 5). -/
def noteFuses (s : State) (f : FuseRead) : State :=
  { s with silicon := { s.silicon with fuseSeen := (f :: s.silicon.fuseSeen).eraseDups } }
/-- The fuses are read as they stand and checked, with the records cleared (R314, R316, R395, log 5). -/
def fuseStage (s : State) (f : FuseRead) : State :=
  if s.boot.stage ≠ 2 || !fuseAgrees s f then s
  else
    let s := clearRecords (noteFuses s f)
    if !f.crcOk then bootFail s 1 0
    else
      let t := setTrims { s with silicon := { s.silicon with dieId := f.dieId, fuseMap := f.retired } } 0 f.trims
      if fuseSparesOk t then setStage t 3 else bootFail t 2 0

/-- A write of the spare-record window (R317, R370, R385). -/
def spareWrite (s : State) (req : Req) (off : Nat) (v : Word) : State :=
  if s.boot.stage ≠ 3 ∨ locked s then reservedWrite s req (0x281000 + off)
  else
    { s with ras := { s.ras with restore := s.ras.restore.setBytes (off / 4 * 4) (leBytes 4 v.toNat) },
             boot := { s.boot with spareWritten := true } }

/-- `spares_done` (R79, R317). -/
def sparesDone (s : State) (req : Req) : State :=
  if s.boot.stage ≠ 3 then reservedWrite s req 0x000044
  else
    let b := bufBytes s.ras.restore (spareLen s)
    let t :=
      if !s.boot.spareWritten then s
      else if spareAccept s b then spareApply s b
      else raiseOpen s 6 Ev.spareRecordRejected
    setStage t 4

def spareMapping (s : State) : State := if s.boot.stage = 4 then setStage s 5 else s

/-- The number that names a memory in the payload of a failed self-test, as R344 numbers units; 10 for core memory. -/
def bistMemoryCode : BistMemory → Nat
  | .staging => 0 | .sump => 1 | .imagePlane => 5 | .eventLog => 6 | .flowstone => 7 | .coreMemory => 10

/-- Payload of `bist_retired` and `spare_test_failed`: array, flag at bit 14, element (R326, R344). -/
def elementPayload (e : Element) : BitVec 24 :=
  BitVec.ofNat 24 (e.array * 2 ^ 15 + (if e.isCol then 2 ^ 14 else 0) + e.index % 2 ^ 14)

/-- Act on what self-test finds, in order, until a finding fails the stage; an array that its slab's spare already stands for needs nothing
more (R318). -/
def bistAct (s : State) : List BistFinding → State
  | [] =>
    setStage { s with staging := { s.staging with bytes := [], zeroed := some s.staging.epoch },
                      sump := { s.sump with totals := [], groups := [] } } 6
  | .element e :: rest =>
    if sparesLeft s e.array e.isCol ≠ 0 then
      bistAct (raise (retireElement s e) 6 Ev.bistRetired (elementPayload e)) rest
    else if isReplaced s e.array then bistAct s rest
    else if spareFree s e.array then
      bistAct (raise (placeSpares (substitute s e.array)) 6 Ev.bistRetired (elementPayload e)) rest
    else bootFail s 4 0
  | .wholeArray a :: rest =>
    if isReplaced s a then bistAct s rest
    else if spareFree s a then
      bistAct (raise (placeSpares (substitute s a)) 6 Ev.bistRetired (elementPayload ⟨a, false, 0⟩)) rest
    else bootFail s 4 0
  | .memory m slab :: _ => bootFail s 3 (bistMemoryCode m * 2 ^ 8 + slab % 8)

/-- Self-test leaves the contents of core memories undefined (R315, log 3). -/
def clearCores (s : State) : State :=
  { s with cores := s.cores.map (fun kv => (kv.1, { kv.2 with imem := [], dmem := [] })),
           boot := { s.boot with coreEpoch := s.boot.coreEpoch + 1 } }
def bistComplete (s : State) (found : List BistFinding) : State :=
  if s.boot.stage = 5 then bistAct (clearCores s) found else s

/-- Sensor values, twelve of them (R359). -/
def setSense (s : State) (vs : List (BitVec 16)) : State :=
  { s with life := { s.life with sense := (List.range 12).map (fun i => (i, vs.getD i 0)) } }

def sensorStage (s : State) (ok : Bool) (vs : List (BitVec 16)) : State :=
  if s.boot.stage ≠ 6 then s
  else if ok then setStage (setSense s vs) 7 else bootFail (setSense s vs) 5 0

/-- A write of the flowstone restore window (R319, R352). -/
def lifeWrite (s : State) (req : Req) (off : Nat) (v : Word) : State :=
  if off ≥ 0x1800 then (if v = 0 then s else reservedWrite s req (0x298000 + off))
  else if s.boot.stage ≠ 7 then reservedWrite s req (0x298000 + off)
  else
    { s with life := { s.life with restore := s.life.restore.setBytes (off / 4 * 4) (leBytes 4 v.toNat) },
             boot := { s.boot with lifeWritten := true } }

/-- The record that starts at `life_done`: a restored one or none, with the start-up accumulator added (R319, R352). -/
def lifeDone (s : State) (req : Req) : State :=
  if s.boot.stage ≠ 7 then reservedWrite s req 0x000044
  else
    let b := bufBytes s.life.restore 6144
    let cause := lifeCause s b
    let ok := s.boot.lifeWritten && cause == 0
    let t := if s.boot.lifeWritten && cause != 0 then raise s 7 Ev.lifeRecordRejected (BitVec.ofNat 24 (cause * 2 ^ 20)) else s
    let base := if ok then (parseLife b).ofClass s else LifeCounts.zero.addGlobal 19 1
    let life := { t.life with rec_ := base.addAll t.life.acc, acc := LifeCounts.zero,
                              disc := if ok then bitAt (fieldAt b 7 1) 0 else true,
                              saves := BitVec.ofNat 32 (if ok then fieldAt b 0x10 4 else 0),
                              saveStep := BitVec.ofNat 40 (if ok then fieldAt b 0x18 8 else 0) }
    setStage { t with life := life, boot := { t.boot with lifeRestored := ok } } 8

/-! Negotiation (R320 to R322). -/

/-- Channels of the class. -/
def chanCount (s : State) : Nat := 8 * s.slabs
/-- The channels whose pins the class has; of another none comes up (R387). -/
def classChannels (s : State) : BitVec 64 := BitVec.ofNat 64 (2 ^ chanCount s - 1)
/-- The first channel is up: the version is sampled and the counting interval opens, with lanes that are up by then sampled too; channels
that come up while it is open count from then on (R320, R321). -/
def negStart (s : State) (up : BitVec 64) (ver : BitVec 2) : State :=
  let up := up &&& classChannels s
  if s.boot.stage ≠ 8 ∨ up = 0 then s
  else if s.boot.interval then { s with pins := { s.pins with chanUp := s.pins.chanUp ||| up } }
  else { s with pins := { s.pins with chanUp := up },
                boot := { s.boot with interval := true, bmpVer := if ver = 0 then 1 else if ver = 3 then 2 else ver,
                                      excess := 0,
                                      rlpSeen := if s.pins.laneUp = 0 then none else some s.pins.rlpHost },
                bmp := { s.bmp with chans := [] } }

/-- Most request credits a channel may start with (R271). -/
def creditCap (s : State) : Nat := if s.boot.bmpVer = 1 then 256 else 1024

/-- A pulse returns a credit where one was spent (R338). -/
def creditBack (s : State) (spent : Nat) : State := if 0 < spent then unitBack s 0 1 else s
/-- A request-credit pulse (R271, R320). -/
def reqCredit (s : State) (ch : Nat) : State :=
  let c := getChan s ch
  if s.boot.interval then
    if !s.pins.chanUp.getLsbD ch then s
    else if c.req < creditCap s then setChan s ch { c with req := c.req + 1 }
    else if s.boot.excess.getLsbD ch then s
    else raise { s with boot := { s.boot with excess := setBit s.boot.excess ch true } } 4 Ev.bmpCreditExcess (pack [(6, ch)])
  else if c.inService then
    creditBack (setChan s ch { c with req := c.req + 1, reqOut := c.reqOut - 1 }) c.reqOut
  else s

/-- A write-transfer credit pulse, as it stands in the count; writes waiting for it take it at once (R271). -/
def wdataCredit (s : State) (ch : Nat) : State :=
  let c := getChan s ch
  if s.boot.interval then (if s.pins.chanUp.getLsbD ch then setChan s ch { c with wdata := c.wdata + 1 } else s)
  else if c.inService then
    creditBack (setChan s ch { c with wdata := c.wdata + 1, wdataOut := c.wdataOut - 1 }) c.wdataOut
  else s

/-- A channel comes out of the interval in service (R320). -/
def chanServes (s : State) (up : BitVec 64) (ch : Nat) : Bool :=
  up.getLsbD ch && decide (1 ≤ (getChan s ch).req) && decide (1 ≤ (getChan s ch).wdata)

/-- The interval ends (R320 to R322). -/
def negEnd (s : State) (up : BitVec 64) (lanes : BitVec 32) : State :=
  if s.boot.stage ≠ 8 ∨ !s.boot.interval then s
  else
    let chs := List.range (chanCount s)
    let serving := chs.filter (chanServes s up)
    let total := (serving.map (fun c => (getChan s c).req)).foldl (· + ·) 0
    let mask := serving.foldl (fun m c => setBit m c true) (0 : BitVec 64)
    let rver : BitVec 2 := if lanes = 0 then 0 else match s.boot.rlpSeen with
      | some v => if v = 3 then 2 else v
      | none => 0
    let chans := serving.map (fun c => (c, { getChan s c with inService := true, counted := (getChan s c).req }))
    let ports := ([0, 1].filter (fun n => fld lanes.toNat (16 * n + 15) (16 * n) != 0)).map (fun n =>
      (n, { getRlp s n with rx := 64 }))
    let rlp := if rver = 0 then s.rlp else { s.rlp with lanes := lanes, chans := ports }
    let t := { s with boot := { s.boot with interval := false, credits := BitVec.ofNat 17 (total - 256), chan := mask,
                                            rlpVer := rver, lanes := if rver = 0 then 0 else lanes },
                      pins := { s.pins with chanUp := up &&& classChannels s, laneUp := lanes },
                      bmp := { s.bmp with chans := chans,
                                          retired := (chs.filter (fun c => !chanServes s up c)).foldl
                                            (fun m c => setBit m c true) 0 },
                      rlp := rlp }
    let t := if rver = 0 then t else unitOut t 1 (64 * ports.length)
    if total ≤ 256 then bootFail t 6 0
    else
      raise (setStage t 9) 4 Ev.negotiated
        (BitVec.ofNat 24 (t.boot.bmpVer.toNat * 2 ^ 22 + rver.toNat * 2 ^ 20 + serving.length % 128))

def negTimeout (s : State) : State :=
  if s.boot.stage = 8 ∧ !s.boot.interval then bootFail s 7 0 else s

/-- Lanes are up; the first such LCLK samples the host's version (R321). Lanes that come up after the interval stay out
of service. -/
def laneUp (s : State) (lanes : BitVec 32) (ver : BitVec 2) : State :=
  let up := s.pins.laneUp ||| lanes
  let t := { s with pins := { s.pins with laneUp := up, rlpHost := ver } }
  if s.boot.interval ∧ s.boot.rlpSeen.isNone ∧ up ≠ 0 then
    { t with boot := { t.boot with rlpSeen := some ver } } else t

/-- Stage 0x9 ends when the lock is set and an image is live (R323). -/
def checkReady (s : State) : State :=
  match s.img.live with
  | some img =>
    if s.boot.stage = 9 && locked s then
      raise (setStage s 0xA) 2 Ev.engineReady (BitVec.ofNat 24 (fieldAt img 0x10 8))
    else s
  | none => s

/-! Meanings. -/

def execRstNFall (s : State) : Result := .next (rstFall s)
def execRstNRise (s : State) : Result := .next (rstRise s)
def execDomainReleaseComplete (s : State) : Result := .next (domainRelease s)
def execFuseStageComplete (f : FuseRead) (s : State) : Result := .next (fuseStage s f)
def execSpareRecordRestoreWrite (req : Req) (off : BitVec 12) (v : Word) (s : State) : Result :=
  .next (portAccess s req (fun t => spareWrite t req off.toNat v))
def execSparesDone (req : Req) (s : State) : Result :=
  .next (portAccess s req (fun t => sparesDone t req))
def execSpareMappingComplete (s : State) : Result := .next (spareMapping s)
def execBistComplete (found : List BistFinding) (s : State) : Result := .next (bistComplete s found)
def execSensorCalibrationComplete (ok : Bool) (sense : List (BitVec 16)) (s : State) : Result :=
  .next (sensorStage s ok sense)
def execLifeRecordRestoreWrite (req : Req) (off : BitVec 13) (v : Word) (s : State) : Result :=
  .next (portAccess s req (fun t => lifeWrite t req off.toNat v))
def execLifeDone (req : Req) (s : State) : Result :=
  .next (portAccess s req (fun t => lifeDone t req))
def execNegotiationStart (up : BitVec 64) (ver : BitVec 2) (s : State) : Result := .next (negStart s up ver)
def execNegotiationIntervalEnd (up : BitVec 64) (lanes : BitVec 32) (s : State) : Result := .next (negEnd s up lanes)
def execNegotiationTimeout (s : State) : Result := .next (negTimeout s)
def execRlpLaneUp (lanes : BitVec 32) (ver : BitVec 2) (s : State) : Result := .next (laneUp s lanes ver)
def execTestEnChange (s : State) : Result := .next (testEnChange s)
def execBmpReqCredit (ch : Fin 64) (s : State) : Result := .next (reqCredit s ch.val)

end Sys2Proof.Machine
end

