-- ==== Sys2Proof/Machine/Loader.lean ====
section
/-! DEFINITION. Loading, validating and swapping armature images (R160 to R180). -/

namespace Sys2Proof.Machine

/-! Sections: reserved fields, and the field rules of R164 to R173. -/

/-- A section type's scope is per variant. -/
def perVariant (typ : Nat) : Bool := decide (1 ≤ typ) && decide (typ ≤ 6)

/-- The length of a section's content by its own counts. -/
def contentLen (c : Cls) (typ : Nat) (b : List Byte) : Nat :=
  if typ = 1 then 16 * c.arrays else if typ = 2 then 64 + 64 * fieldAt b 0 2 else if typ = 4 then 576 * c.slabs
  else if typ = 5 then (if c.regions then 256 * c.arrays else 64) else if typ = 6 then 16 * c.slabs
  else if typ = 8 then 16 + 112 * fieldAt b 0 2 else if typ = 9 then 16 + 8 * fieldAt b 0 2 else 64

/-- Equal pieces of a byte string, from an offset. -/
def pieces (b : List Byte) (o size n : Nat) : List (List Byte) :=
  (List.range n).map (fun i => slice b (o + size * i) (o + size * i + size))

/-- Every reserved field of a section, its padding and the unused rungs of a ladder included, is zero (R153, log 42). -/
def sectReservedZero (c : Cls) (typ : Nat) (b : List Byte) : Bool :=
  let z := fun (x : List Byte) lo hi => allZero (slice x lo hi)
  allZero (b.drop (contentLen c typ b)) &&
  (if typ = 1 then (pieces b 0 16 c.arrays).all (fun e => decide (fieldAt e 2 1 < 4) && z e 3 4 && z e 6 16)
   else if typ = 2 then z b 2 64 && (pieces b 64 64 (fieldAt b 0 2)).all (fun e =>
      decide (fieldAt e 0 4 < 8) && decide (fieldAt e 4 4 < 2 ^ 25) && z e 0x26 0x28)
   else if typ = 3 then decide (fieldAt b 8 1 < 128) && decide (fieldAt b 9 1 < 2) && z b 11 64
   else if typ = 4 then (pieces b 0 576 c.slabs).all (fun h => z h 4 64 &&
      (pieces h 64 16 32).all (fun e => z e 1 2 && z e 10 16))
   else if typ = 5 then (if c.regions then (pieces b 0 4 (64 * c.arrays)).all (fun e => decide (fieldAt e 0 4 < 2 ^ 28))
      else allZero b)
   else if typ = 6 then (pieces b 0 16 c.slabs).all (fun e => z e 1 2 && z e 6 16 &&
      (List.range 4).all (fun g => decide (fieldAt e (2 + g) 1 < 64)))
   else if typ = 7 then (pieces b 0 4 16).all (fun e => decide (fieldAt e 2 1 < 2) && z e 3 4)
   else if typ = 8 then z b 2 16 && (pieces b 16 112 (fieldAt b 0 2)).all (fun l => z l 2 16 &&
      (pieces l 16 16 6).all (fun r => decide (fieldAt r 7 1 < 8) && z r 10 16) &&
      ((pieces l 16 16 6).drop (fieldAt l 0 1)).all allZero)
   else z b 2 16 && (pieces b 16 8 (fieldAt b 0 2)).all (fun e => decide (fieldAt e 6 1 < 2) && z e 7 8))

/-- A list has no two equal elements. -/
def distinct {α : Type} [BEq α] : List α → Bool
  | [] => true
  | x :: xs => !xs.contains x && distinct xs

/-- Ranges of slots or rows do not overlap. -/
def disjointRanges : List (Nat × Nat) → Bool
  | [] => true
  | x :: xs => xs.all (fun y => x.2 == 0 || y.2 == 0 || decide (x.1 + x.2 ≤ y.1) || decide (y.1 + y.2 ≤ x.1)) &&
      disjointRanges xs

/-- R164. -/
def castOk (e : List Byte) : Bool :=
  let c := Cast.ofBytes e
  if !c.enabled then allZero e else
  let serialOk := !c.serial || ((c.ft == 1 || c.ft == 2 || c.ft == 3 || c.ft == 4) &&
    (c.fs == 5 || c.fs == 7 || c.fs == 8 || c.fs == 9))
  fmtValid c.fs && fmtValid c.ft && ((c.fs == 6) == (c.ft == 6)) && serialOk &&
    (c.L == c.rows * c.p || (decide (1 ≤ c.h) && c.L % c.p == 0 && c.h * c.r % 16 == 0 && decide (c.h ≤ c.rows))) &&
    (!(fmtScaled c.fs || fmtScaled c.ft) || (c.L != 0 && 256 % c.L == 0))

/-- R62. DESIGN CHOICE: korder set in a tensor walk counts as a reserved value, for the bit is for convolution only (log 94). -/
def feederOk (d : List Byte) : Bool :=
  let mode := fld (fieldAt d 0 1) 1 0
  let ext := (List.range 4).map (fun i => fieldAt d (8 + 2 * i) 2) ++ (List.range 3).map (fun i => fieldAt d (0x20 + 2 * i) 2)
  ext.all (· != 0) &&
    (if mode = 0 then allZero (slice d 0x34 0x40) && !bitAt (fieldAt d 0 1) 2
     else if mode = 1 then allZero (slice d 0x2C 0x34) && fieldAt d 0x0E 2 == 1 &&
       (slice d 0x38 0x3C).all (· != 0)
     else false)

/-- R168, apart from the credit total; a pool of no slots lies nowhere. -/
def stagingOk (h : List Byte) : Bool :=
  let es := pieces h 64 16 32
  let pool := (fieldAt h 0 2, fieldAt h 2 2)
  let used := es.filter (fun e => fieldAt e 0 1 != 0)
  es.all (fun e => if fieldAt e 0 1 = 0 then allZero e else
      decide (fieldAt e 0 1 ≤ 5) && decide (1 ≤ fieldAt e 4 2) && decide (fieldAt e 2 2 + fieldAt e 4 2 ≤ 512) &&
      decide (fieldAt e 6 2 ≤ pool.2)) &&
    (pool.2 == 0 || decide (pool.1 + pool.2 ≤ 512)) &&
    disjointRanges ((if pool.2 = 0 then [] else [pool]) ++ used.map (fun e => (fieldAt e 2 2, fieldAt e 4 2))) &&
    decide ((used.filter (fun e => fieldAt e 0 1 == 2)).length ≤ 1)

/-- R169. -/
def regionsOk (t : List Byte) : Bool :=
  let rs := (pieces t 0 4 64).map (fun e => let w := fieldAt e 0 4; (fld w 8 0, fld w 17 9))
  rs.all (fun r => r.2 == 0 || decide (r.1 + r.2 ≤ 384)) && disjointRanges rs

/-- R170. -/
def lanesOk (e : List Byte) : Bool :=
  let g := fieldAt e 0 1
  let m := (List.range 4).map (fun i => fld (fieldAt e (2 + i) 1) 5 0)
  (g == 1 || g == 2 || g == 4) && (m.take g).all (· != 0) && (m.drop g).all (· == 0) &&
    (List.range 6).all (fun r => decide ((m.filter (fun x => bitAt x r)).length ≤ 1))

/-- R153, R154, apart from the variant indices. -/
def ladderOk (l : List Byte) : Bool :=
  let n := fieldAt l 0 1
  let rs := pieces l 16 16 6
  let f := fun (r : List Byte) i => fieldAt r i 1
  let rungOk := fun (r : List Byte) => (List.range 7).all (fun i => fmtValid (f r i)) &&
    [2, 4, 5, 6].all (fun i => f r i == f r 0) && ((f r 0 == 6) == (f r 1 == 6)) && ((f r 2 == 6) == (f r 3 == 6))
  decide (1 ≤ n) && decide (n ≤ 6) && decide (fieldAt l 1 1 < n) && (rs.take n).all rungOk &&
    (List.range (n - 1)).all (fun i => (List.range 7).all (fun j =>
      decide (fmtNibbles (f (rs.getD i []) j) ≤ fmtNibbles (f (rs.getD (i + 1) []) j))))

/-- R173. -/
def consumersOk (c : Cls) (b : List Byte) : Bool :=
  let es := pieces b 16 8 (fieldAt b 0 2)
  decide (fieldAt b 0 2 ≤ 2048) &&
    es.all (fun e =>
      let k := fieldAt e 0 1
      let i := fieldAt e 1 1
      (k == 1 && decide (i < c.arrays) || k == 2 && decide (i < 4 * c.slabs) || k == 3 && decide (i < c.slabs)) &&
        decide (1 ≤ fieldAt e 5 1) && decide (fieldAt e 5 1 ≤ 5) &&
        (bitAt (fieldAt e 6 1) 0 || fieldAt e 2 2 != 0 || fieldAt e 4 1 != 0)) &&
    distinct (es.map (fun e => (fieldAt e 2 2, fieldAt e 4 1))) &&
    distinct (es.map (fun e => (fieldAt e 0 1, fieldAt e 1 1, fieldAt e 4 1)))

/-- The field rules of a section. -/
def sectOk (c : Cls) (typ : Nat) (b : List Byte) : Bool :=
  decide (contentLen c typ b ≤ b.length) &&
  (if typ = 1 then (pieces b 0 16 c.arrays).all castOk
   else if typ = 2 then decide (fieldAt b 0 2 ≤ 256) && (pieces b 64 64 (fieldAt b 0 2)).all feederOk
   else if typ = 3 then
     (List.range 8).all (fun x => decide (x < c.slabs) || fieldAt b x 1 == 0) &&
       decide (fieldAt b 8 1 < 2 ^ (c.slabs - 1)) && decide (fieldAt b 10 1 < 2 ^ c.slabs) &&
       (c.slabs == 8 || fieldAt b 9 1 == 0)
   else if typ = 4 then (pieces b 0 576 c.slabs).all stagingOk
   else if typ = 5 then !c.regions || (pieces b 0 256 c.arrays).all regionsOk
   else if typ = 6 then (pieces b 0 16 c.slabs).all lanesOk
   else if typ = 7 then (List.range 16).all (fun i =>
     let e := slice b (4 * i) (4 * i + 4)
     if i < c.slabs ∨ i = 8 then bitAt (fieldAt e 2 1) 0 && decide (fieldAt e 0 2 ≤ 4095) else allZero e)
   else if typ = 8 then decide (1 ≤ fieldAt b 0 2) && decide (fieldAt b 0 2 ≤ 64) &&
     (pieces b 16 112 (fieldAt b 0 2)).all ladderOk
   else consumersOk c b)

/-- Credits a staging section reserves over the whole engine (R168). -/
def creditSum (c : Cls) (b : List Byte) : Nat :=
  ((pieces b 0 576 c.slabs).flatMap (fun h => (pieces h 64 16 32).map (fun e => fieldAt e 8 2))).foldl (· + ·) 0

/-! Validation (R177). -/

/-- The first directory index for which a test fails. -/
def firstBad (n : Nat) (p : Nat → Bool) : Option Nat := (List.range n).find? (fun i => !p i)

/-- End of the padded directory. -/
def dirEnd (n : Nat) : Nat := 64 + ceilDiv (16 * n) 64 * 64

/-- A directory entry is as R162 sets out, reserved fields excepted. -/
def dirOk (img : List Byte) (n i : Nat) : Bool :=
  let d := imgDir img i
  let start := if i = 0 then dirEnd n else let e := imgDir img (i - 1); e.2.2.1 + e.2.2.2
  decide (1 ≤ d.1) && decide (d.1 ≤ 9) &&
    (if perVariant d.1 then decide (d.2.1 < fieldAt img 9 1) else d.2.1 == 0xFF) &&
    d.2.2.1 == start && d.2.2.2 % 64 == 0 && decide (64 ≤ d.2.2.2) &&
    (i + 1 != n || d.2.2.1 + d.2.2.2 == img.length - 64)

/-- The section set is as R163 requires. -/
def setOk (img : List Byte) (n : Nat) : Bool :=
  let ds := (List.range n).map (fun i => let d := imgDir img i; (d.1, d.2.1))
  let num := fun t v => (ds.filter (fun d => d == (t, v))).length
  (List.range (fieldAt img 9 1)).all (fun v => (List.range 6).all (fun t => num (t + 1) v == 1)) &&
    num 7 0xFF == 1 && num 9 0xFF == 1 && decide (num 8 0xFF ≤ 1)

/-- Reserved fields of the header, the directory and its padding. -/
def headReservedZero (img : List Byte) (n : Nat) : Bool :=
  allZero (slice img 6 8) && allZero (slice img 0xB 0xC) && allZero (slice img 0xE 0x10) &&
    allZero (slice img 0x1E 0x20) && allZero (slice img 0x24 0x3C) &&
    (List.range n).all (fun i => allZero (slice img (64 + 16 * i + 2) (64 + 16 * i + 4))) &&
    allZero (slice img (64 + 16 * n) (dirEnd n))

/-- The key registers and, last, their valid bits (R374). -/
def keyRegs (s : State) : List Word := (List.range 33).map (fun i => liveReg s (0x030100 + 4 * i))
/-- The 32 bytes of a key slot as the load found them (R175). -/
def keyBytes (s : State) (slot : Nat) : List Byte :=
  (List.range 8).flatMap (fun w => leBytes 4 (s.img.keys.getD (8 * slot + w) 0).toNat)

def sectBytes (img : List Byte) (i : Nat) : List Byte := let d := imgDir img i; slice img d.2.2.1 (d.2.2.1 + d.2.2.2)

/-- Steps 2 to 8 of R177 on an image's bytes: none where every check passes, else the code and the section. -/
def imageFault (s : State) (len : Nat) (img : List Byte) : Option (Nat × Nat) :=
  let n := fieldAt img 0x1C 2
  let c := s.silicon.cls
  let no := 0xFFFF
  let typ := fun i => (imgDir img i).1
  if fieldAt img 0 4 ≠ 0x4D52415A then some (0x01, no)
  else if fieldAt img 4 1 ≠ 2 then some (0x02, no)
  else if fieldAt img 5 1 ≠ 0 then some (0x03, no)
  else if fieldAt img 0x3C 4 ≠ (crc32c (img.take 0x3C)).toNat then some (0x07, no)
  else if fieldAt img 0x18 4 ≠ len then some (0x06, no)
  else if fieldAt img 8 1 ≠ c.arrays then some (0x04, no)
  else if fieldAt img 0xC 2 ≠ s.silicon.lanes then some (0x05, no)
  else if fieldAt img 9 1 = 0 ∨ 64 < fieldAt img 9 1 ∨ 3 < fieldAt img 0xA 1 then some (0x08, no)
  else if n < 4 ∨ 1024 < n ∨ fieldAt img 0x20 4 ≠ (crc32c (slice img 64 (64 + 16 * n))).toNat then some (0x08, no)
  else match firstBad n (dirOk img n) with
  | some i => some (0x08, i)
  | none =>
  if !setOk img n then some (0x08, no)
  else match firstBad n (fun i => (crc32c (sectBytes img i)).toNat == fieldAt img (64 + 16 * i + 12) 4) with
  | some i => some (0x09, i)
  | none =>
  let slot := fieldAt img 0xA 1
  if !(s.img.keys.getD 32 0).getLsbD slot then some (0x0A, no)
  else if !edVerify (keyBytes s slot) (img.take (len - 64)) (img.drop (len - 64)) then some (0x0B, no)
  else if !headReservedZero img n then some (0x10, no)
  else match firstBad n (fun i => sectReservedZero c (typ i) (sectBytes img i)) with
  | some i => some (0x10, i)
  | none =>
  match firstBad n (fun i => sectOk c (typ i) (sectBytes img i)) with
  | some i => some (0x0C, i)
  | none =>
  match firstBad n (fun i =>
      if typ i = 8 then
        (pieces (sectBytes img i) 16 112 (fieldAt (sectBytes img i) 0 2)).all (fun l =>
          (pieces l 16 16 (fieldAt l 0 1)).all (fun r => decide (fieldAt r 8 2 < fieldAt img 9 1)))
      else if typ i = 4 then decide (creditSum c (sectBytes img i) ≤ s.boot.credits.toNat) else true) with
  | some i => some (0x0D, i)
  | none => none

/-- Reject the load (R176). -/
def imgReject (s : State) (code sect : Nat) : State :=
  raise { s with img := { s.img with shadow := none, state := 3, code := BitVec.ofNat 8 code,
                                     sect := BitVec.ofNat 16 sect, loading := none },
                 bmp := { s.bmp with jobs := s.bmp.jobs.filter (fun j => j.kind != .image) } }
    1 Ev.imageRejected (BitVec.ofNat 24 (code * 2 ^ 16 + sect))

/-- The length is one the loader fetches (R177 step 1). -/
def lenOk (len : Nat) : Bool := len % 64 == 0 && decide (1152 ≤ len) && decide (len ≤ 4194304)

/-- `IMG_CTRL.load` (R176, R179). -/
def imgLoad (s : State) : State :=
  if s.img.swapPending then
    raise { s with img := { s.img with code := 0x11, sect := 0xFFFF } } 1 Ev.imageRejected 0x11FFFF
  else
    let s := match s.img.loading with
      | some _ => imgReject s 0x0F 0xFFFF
      | none => s
    let src := livePair s 0x030000 % 2 ^ 52
    let len := (liveReg s 0x030008).toNat
    let job : Job := { id := s.bmp.nextJob, kind := .image, reads := true, writes := false, src := src, dst := 0, slab := 0,
                       part := 0, off := 0, len := len, rdIssued := 0, rdDone := 0, wrIssued := 0, wrDone := 0, rdSince := s.bmp.nextJob, buf := [],
                       failed := false, spec := false }
    let bmp := if lenOk len then { s.bmp with jobs := s.bmp.jobs ++ [job], nextJob := s.bmp.nextJob + 1 } else s.bmp
    { s with bmp := bmp,
             img := { s.img with shadow := none, state := 1, code := 0, sect := 0, loading := some (src, len), keys := keyRegs s } }

/-- The image as fetched: bytes a read of the fetch brought, else host memory's (log 23). -/
def fetched (s : State) (src len : Nat) : List Byte :=
  match s.bmp.jobs.find? (fun j => j.kind == .image) with
  | some j => (List.range len).map (fun i => (j.buf.byte? (src + i)).getD (hostByteOf s.hostMem ((mapAddr s (src + i) 1).getD (src + i))))
  | none => portBytes s src len

/-- The fetch has ended: validation (R176, R177). `fetchOk` is whether every request completed without an error
response. A load requested before negotiation has passed has fetched nothing yet (R323). -/
def imageValidate (s : State) (fetchOk : Bool) : State :=
  match s.img.loading with
  | none => s
  | some (src, len) =>
    if s.boot.stage ≠ 9 ∧ s.boot.stage ≠ 0xA then s
    else if !lenOk len then imgReject s 0x06 0xFFFF
    else if !fetchOk || s.bmp.jobs.any (fun j => j.kind == .image && j.failed) then imgReject s 0x0E 0xFFFF
    else
      let img := fetched s src len
      match imageFault s len img with
      | some (code, sect) => if code = 0x10 then imgReject (reservedRead s 1 src) code sect else imgReject s code sect
      | none =>
        raise { s with img := { s.img with shadow := some img, state := 2, code := 0, sect := 0, loading := none },
                       bmp := { s.bmp with jobs := s.bmp.jobs.filter (fun j => j.kind != .image) } }
          1 Ev.imageLoaded (BitVec.ofNat 24 (fieldAt img 0x10 8))

/-! Plane swaps (R180). -/

/-- The planes are swapped: variant 0 of the new image is in force, every group is closed and every region fresh, a new image
identifier makes every layer's governor state fresh, streams whose format changes lose their history, and the frame buffers stand in the
new partitions (R255, R279). DESIGN CHOICE: a new
variant 0 that enables a failed array is brought into force all the same (R76, log 102). -/
def planeSwap (s : State) : State :=
  match s.img.shadow with
  | none => s
  | some img =>
    let same := match s.img.live with
      | some old => fieldAt old 0x10 8 == fieldAt img 0x10 8
      | none => false
    let t := resetSump { dropBuffers s with
      img := { s.img with live := some img, shadow := none, state := 0, swapPending := false, variant := 0,
                          staged := none, swapTo := none },
      gov := if same then s.gov else { s.gov with layers := [] } }
    checkReady (raise (takeBuffers (resetFormats s t)) 1 Ev.imageSwapped (BitVec.ofNat 24 (fieldAt img 0x10 8)))

/-- `IMG_CTRL.swap` (R179, R180): at the step boundary from a step's start on, and at once between steps. -/
def imgSwap (s : State) : State :=
  if s.img.state ≠ 2 then raiseOpen s 1 Ev.imageSwapRefused
  else if s.img.swapPending then s
  else if s.psc.run || s.psc.stepOn then { s with img := { s.img with swapPending := true } }
  else planeSwap s

def execImgLoad (req : Req) (s : State) : Result :=
  .next (portAccess s req (fun t => imgLoad t))
def execImageValidate (fetchOk : Bool) (s : State) : Result := .next (imageValidate s fetchOk)
def execImgSwap (req : Req) (s : State) : Result :=
  .next (portAccess s req (fun t => imgSwap t))

end Sys2Proof.Machine
end

