-- ==== Sys2Proof/Machine/Versions.lean ====
section
/-! DEFINITION. Weight versions: descriptors, tokens and bindings, the update hold (R126 to R133). -/

namespace Sys2Proof.Machine

/-! Version descriptors (R126), from the step's copy. -/

def verBytes (s : State) (t : Nat) : List Byte := smpBytes s (smpPair s 0x040040 + 256 * t) 256
/-- The descriptor passes its checks. -/
def verDescOk (b : List Byte) : Bool :=
  decide (fieldAt b 0 1 < 8) && allZero (slice b 1 16) && allZero (slice b 0x90 0x100) &&
    (List.range 8).all (fun i =>
      if i ≤ fieldAt b 0 1 then !addrHigh (fieldAt b (0x10 + 16 * i) 8) && !addrHigh (fieldAt b (0x18 + 16 * i) 8)
      else allZero (slice b (0x10 + 16 * i) (0x20 + 16 * i)))
/-- Reserved fields of a descriptor (R14, R126). -/
def verReserved (b : List Byte) : Bool :=
  decide (8 ≤ fieldAt b 0 1) || !allZero (slice b 1 16) || !allZero (slice b 0x90 0x100) ||
    (List.range 8).any (fun i => addrHigh (fieldAt b (0x10 + 16 * i) 8) || addrHigh (fieldAt b (0x18 + 16 * i) 8))
/-- `reserved_write` for a descriptor that the step reads, if it has a reserved field that is not zero, once (R14). -/
def noteVerReserved (s : State) (t : Nat) : State :=
  if !verReserved (verBytes s t) then s else raiseOnceStep s 2 Ev.reservedWrite (2 ^ 34 + t) (pack [(3, 7), (21, (smpPair s 0x040040 + 256 * t) / 4)])
/-- The events of reading a tensor's version descriptor: a straddled window, reserved fields (R14, R252). -/
def noteVer (s : State) (t : Nat) : State :=
  if t < 1024 then noteVerReserved (noteTable s (smpPair s 0x040040 + 256 * t) 256) t else s
def verOk (s : State) (t : Nat) : Bool := decide (t < 1024) && verDescOk (verBytes s t)
/-- Retained older versions k. -/
def verStash (s : State) (t : Nat) : Nat := fieldAt (verBytes s t) 0 1 % 8
/-- The address of a buffer in W order or, with `wt`, in Wᵀ order. -/
def verBuffer (s : State) (t buf : Nat) (wt : Bool) : Nat :=
  addr52 (fieldAt (verBytes s t) (0x10 + 16 * buf + (if wt then 8 else 0)) 8)

def getTag (v : TensorVer) (tag : Nat) : TagState := Tab.get TagState.reset v.tags tag
def curBuffer (v : TensorVer) : Nat := (getTag v v.cur).buffer
/-- The buffer an update of the tensor writes (R132). -/
def nextBuffer (s : State) (t : Nat) : Nat := (curBuffer (getVer s t) + 1) % (verStash s t + 1)
/-- The buffer a reference resolves to, through a binding or as the current version; none where the binding is clear
(R130). -/
def verRef (s : State) (t binding : Nat) (current : Bool) : Option Nat :=
  let v := getVer s t
  if current then some (curBuffer v) else (List.lookup binding v.bound).map (fun tag => (getTag v tag).buffer)

/-- A version whose tokens hold the buffer that an update would write (R133). -/
def verHeldTag (s : State) (t : Nat) : Option Nat :=
  let v := getVer s t
  ((v.tags.filter (fun kv => kv.2.live && kv.2.buffer == nextBuffer s t &&
    ((kv.2.tokens : Int) + kv.2.pending != 0))).map (·.1)).head?

/-! Tokens and bindings (R128, R129, R131). -/

def tokenChange (v : TensorVer) (tag : Nat) (d : Int) : TensorVer :=
  { v with tags := v.tags.upd TagState.reset tag (fun x => { x with pending := x.pending + d }) }
/-- Release a bound tag; nothing on a clear binding. -/
def dropBinding (v : TensorVer) (binding : Nat) : TensorVer :=
  match List.lookup binding v.bound with
  | some tag => { tokenChange v tag (-1) with bound := v.bound.filter (fun kv => kv.1 != binding) }
  | none => v

/-- An acquire of one tensor (R128). -/
def acquireNow (s : State) (binding t : Nat) : State :=
  let v := dropBinding (getVer s t) binding
  let g := getTag v v.cur
  if (g.tokens : Int) + g.pending + 1 > 65535 then raiseOpen (setVer s t v) 2 Ev.versionTokenLimit
  else setVer s t { tokenChange v v.cur 1 with bound := v.bound.put binding v.cur }

/-- A release of one tensor (R129). -/
def releaseNow (s : State) (binding t : Nat) : State :=
  let v := getVer s t
  if (List.lookup binding v.bound).isSome then setVer s t (dropBinding v binding)
  else raiseOpen s 2 Ev.versionReleaseUnheld

/-- The tensor that an update slot names (R231). -/
def Slot.updates (s : State) (sl : Slot) (t : Nat) : Bool :=
  let b := descBytes s sl.passage sl.descIndex
  decide (64 ≤ sl.index) && decide (sl.index < 72) && sl.opcode == 1 && fieldAt b 0 1 == 6 && fieldAt b 8 2 == t
/-- An acquire must wait for the step boundary: the tensor keeps no older version and its update has issued or begun (R133). -/
def acquireWaits (s : State) (t : Nat) : Bool :=
  ((getVer s t).updating || s.psc.accepted.any (fun sl => sl.updates s t)) && verStash s t == 0

/-- A version operation on one tensor: at once, or behind those of the tensor that wait (R127, R128, R133, log 49). -/
def versionWrite (s : State) (release : Bool) (binding t : Nat) : State :=
  let v := getVer s t
  if !v.waiting.isEmpty || (!release && acquireWaits s t) then
    setVer s t { v with waiting := v.waiting ++ [(release, binding)] }
  else if release then releaseNow s binding t else acquireNow s binding t

/-- Tensors of a range. -/
def tensorRange (first last : Nat) : List Nat := (List.range (last + 1 - first)).map (· + first)

/-- A write of `PSC_VERSION`: `last` below `first` is reserved (R13, R375). -/
def versionRegister (s : State) (req : Req) (release : Bool) (binding first last : Nat) : State :=
  if last < first then reservedWrite s req 0x040014
  else (tensorRange first last).foldl (fun t x => versionWrite t release binding x) s

/-- A control slot's version operation, which issue has let through (R191). -/
def versionSlot (s : State) (release : Bool) (binding first last : Nat) : State :=
  (tensorRange first last).foldl (fun t x => versionWrite t release binding x) s
/-- An acquire waits for the step boundary (R133). -/
def acquireParked (s : State) : Bool := s.vers.any (fun kv => kv.2.waiting.any (fun w => !w.1))

/-! Commit, abort, update and boundary. -/

/-- A tag's tokens after a commit. DESIGN CHOICE: a sum below zero, which the spec gives no result for, leaves no token (R131,
log 100). -/
def foldTag (g : TagState) : TagState := { g with tokens := ((g.tokens : Int) + g.pending).toNat, pending := 0 }
/-- Tokens that a commit issues to a tensor's tags, and those it returns (R131, R338). -/
def TensorVer.issued (v : TensorVer) : Nat := v.tags.foldl (fun m g => m + g.2.pending.toNat) 0
def TensorVer.returned (v : TensorVer) : Nat := v.tags.foldl (fun m g => m + (-g.2.pending).toNat) 0
/-- Every pending count enters its tag's tokens (R131). -/
def commitVersions (s : State) : State :=
  let up := s.vers.foldl (fun n kv => n + kv.2.issued) 0
  let down := s.vers.foldl (fun n kv => n + kv.2.returned) 0
  unitBack (unitOut { s with vers := s.vers.map (fun kv =>
    (kv.1, { kv.2 with tags := kv.2.tags.map (fun g => (g.1, foldTag g.2)), acquired := kv.2.acquired + kv.2.issued,
                       released := kv.2.released + kv.2.returned })) } 6 up) 6 down
/-- Pending counts are cleared and bindings restored (R131). -/
def abortVersions (s : State) : State :=
  { s with vers := s.vers.map (fun kv =>
    (kv.1, { kv.2 with tags := kv.2.tags.map (fun g => (g.1, { g.2 with pending := 0 })), bound := kv.2.atStart })) }
/-- The bindings as they stand at a step's start (R131). -/
def markBindings (s : State) : State := { s with vers := s.vers.map (fun kv => (kv.1, { kv.2 with atStart := kv.2.bound })) }
/-- An update of the tensor has started (R133). -/
def markUpdating (s : State) (t : Nat) : State := setVer s t { getVer s t with updating := true }

/-- The tag that last used a buffer: the newest of the live ones there (R132). -/
def TensorVer.lastUser (v : TensorVer) (buf : Nat) : Option Nat :=
  ((List.range 8).map (fun i => (v.cur + 8 - i) % 8)).find? (fun t => (getTag v t).live && (getTag v t).buffer == buf)
/-- The version an update wrote becomes current, and the one that last used its buffer is no longer live, unless it is the former
current one (R132). -/
def advanceVersion (s : State) (t : Nat) (v : TensorVer) : TensorVer :=
  if !v.updating then v else
  let buf := nextBuffer s t
  let tag := (v.cur + 1) % 8
  let gone := (v.lastUser buf).filter (· != v.cur)
  let tags : Tab TagState := v.tags.map (fun g => (g.1, if gone = some g.1 then { g.2 with live := false } else g.2))
  { v with cur := tag, updating := false,
           tags := tags.upd TagState.reset tag (fun g => { g with live := true, buffer := buf }) }

/-- Tags advance, then the operations that waited for the boundary act in order (R21, R132, R133). -/
def boundaryVersions (s : State) : State :=
  let waits := s.vers.flatMap (fun kv => kv.2.waiting.map (fun w => (kv.1, w)))
  let t := { s with vers := s.vers.map (fun kv => (kv.1, { advanceVersion s kv.1 kv.2 with waiting := [] })) }
  waits.foldl (fun u w => if w.2.1 then releaseNow u w.2.2 w.1 else acquireNow u w.2.2 w.1) t

/-! Meanings. -/

def execVersionAcquire (req : Req) (binding : BitVec 4) (first last : BitVec 10) (s : State) : Result :=
  .next (portAccess s req (fun t => versionRegister t req false binding.toNat first.toNat last.toNat))
def execVersionRelease (req : Req) (binding : BitVec 4) (first last : BitVec 10) (s : State) : Result :=
  .next (portAccess s req (fun t => versionRegister t req true binding.toNat first.toNat last.toNat))

end Sys2Proof.Machine
end

