-- ==== Sys2Proof/Machine/StepCtl.lean ====
section
/-! DEFINITION. The ends of a step: commit with statistics, scales and governor, abort, step boundary, audit, and the
uncorrectable error (R20, R21, R93, R131, R139 to R143, R148, R155 to R159, R208, R263, R333, R339). -/

namespace Sys2Proof.Machine

/-! Mailboxes (R311). -/

/-- Post a value: the sequence rises, ready is set, the mailbox's source pulses. -/
def postMailbox (s : State) (n : Nat) (v : BitVec 64) : State :=
  let m := getMbx s n
  intPulse (setMbx s n { value := v, seq := m.seq + 1, ready := true }) (32 + n)
/-- Open a mailbox. -/
def openMailbox (s : State) (n : Nat) : State := setMbx s n { getMbx s n with ready := false }
/-- The value of mailboxes 0 and 1: step and attempt. -/
def stepValue (s : State) : BitVec 64 := BitVec.ofNat 64 (s.psc.step.toNat + s.psc.attempt.toNat * 2 ^ 40)

/-! Statistics records (R140, R143). -/


/-- The quantities of a stream as the record and a statistics frame lay them out. -/
def StreamStat.bytes (q : StreamStat) : List Byte :=
  (List.range 40).flatMap (fun i => leBytes 8 (Tab.get 0 q.bins i)) ++ leBytes 8 q.clipped ++ leBytes 8 q.under ++
    leBytes 8 q.nonfin ++ leBytes 8 q.tiles ++ leBytes 8 q.jit ++ leBytes 4 q.amax.toNat
def StreamStat.ofBytes (b : List Byte) : StreamStat :=
  { bins := ((List.range 40).map (fun i => (i, fieldAt b (8 * i) 8))).filter (fun kv => kv.2 != 0),
    clipped := fieldAt b 0x140 8, under := fieldAt b 0x148 8, nonfin := fieldAt b 0x150 8, tiles := fieldAt b 0x158 8,
    jit := fieldAt b 0x160 8, amax := BitVec.ofNat 32 (fieldAt b 0x168 4) }
/-- The quantities a record holds. -/
def recStat (s : State) (x : Nat) : StreamStat := StreamStat.ofBytes (portBytes s (recAddr s x) 0x16C)

/-- The next scale of a stream with delayed scaling, with its history (R143). -/
def nextSigma (s : State) (x : Nat) (st : Stream) : State :=
  let pos := recNat s x 0x17C 1 % 16
  let s := recWrite s x (0x180 + 4 * pos) 4 (recNat s x 0x168 4)
  let s := recWrite s x 0x17C 1 ((pos + 1) % st.histLen)
  let n := min (recNat s x 0x17B 1 + 1) st.histLen
  let s := recWrite s x 0x17B 1 n
  let m := ((List.range n).map (fun i => ofF32 (recNat s x (0x180 + 4 * i) 4))).foldl Dy.max Dy.zero
  let sigma := if m.m ≤ 0 then signed 8 (recNat s x 0x179 1) else clampScale (fitExp st.fmt m - st.margin)
  recWrite s x 0x17A 1 (lowBits 8 sigma)

/-- Write the reduced values of one stream at commit (R140). -/
def commitStream (s : State) (x : Nat) (q : StreamStat) : State :=
  let s := portWrite s (recAddr s x) (q.bytes ++ leBytes 4 0 ++ leBytes 8 s.psc.step.toNat)
  recWrite s x 0x178 1 (streamOf s x).fmt
/-- The next scale of every stream with delayed scaling (R143). -/
def commitScales (s : State) : State :=
  (streamList s).foldl (fun t x => let st := streamOf t x; if st.delayed then nextSigma t x st else t) s

/-- The streams of a fragment, in ascending order. -/
def commitFragment (s : State) (f : Fragment) : State :=
  ((List.range f.streams.length).zip f.streams).foldl (fun t iq => commitStream t (f.first + iq.1) iq.2) s

/-! Calibration counters (R148). -/

/-- A described rescale table: base and channel count. -/
def rescaleBase (s : State) (t : Nat) : Nat := smpPair s (0x060000 + 16 * t)
def writeCalib (s : State) (t : Nat) : State :=
  let n := rescaleCount s t
  if n = 0 then s else
  portWrite s (rescaleBase s t + 8 * n)
    ((List.range n).flatMap (fun c => leBytes 2 (Tab.get 0 s.gov.calib (t * 2 ^ 18 + c))))

/-! The governor (R158, R159). -/

/-- Sub-rule `p` of a rule entry: its bytes. -/
def subRule (e : List Byte) (p : Nat) : List Byte := slice e (0x10 + 0x18 * p) (0x28 + 0x18 * p)

/-- Whether a sub-rule's watched streams call for promotion, and whether they allow demotion. -/
def judge (s : State) (r : List Byte) : Bool × Bool :=
  let xs := ((List.range 4).map (fun i => fieldAt r (0xC + 2 * i) 2)).filter (· != 0xFFFF)
  xs.foldl (fun (ud : Bool × Bool) x =>
    let q := recStat s x
    (ud.1 || decide (q.clipped * 2 ^ 24 > fieldAt r 4 4 * q.total) || decide (q.jit * 2 ^ 24 > fieldAt r 8 4 * q.tiles),
     ud.2 && q.clipped == 0 && decide (fieldAt r 1 1 ≤ q.headroom))) (false, true)

/-- Streams that a sub-rule in force watches. -/
def watchedStreams (s : State) : List Nat :=
  (List.range (min 1024 (smpReg s 0x050020))).flatMap (fun l => if !ruleEnabled s l then [] else
    (List.range 3).flatMap (fun p => let r := subRule (ruleBytes s l) p
      if fieldAt r 0 1 = 0 then [] else (List.range 4).map (fun i => fieldAt r (0xC + 2 * i) 2)))
/-- The records that a commit reads: for the next scales, if it takes them, and for the governor, if it runs (R14, R140, log 124). -/
def noteRecords (s : State) (scales gov : Bool) : State :=
  let w := if gov then watchedStreams s else []
  (streamList s).foldl (fun t x => if (scales && (streamOf t x).delayed) || w.contains x then noteRecord t x else t) s
/-- Runs of one product after a commit. -/
def runsOf (s : State) (e : List Byte) (x : Layer) (p : Nat) : Nat × Nat :=
  let r := subRule e p
  if fieldAt r 0 1 = 0 then (x.up.getD p 0, x.down.getD p 0) else
  let ud := judge s r
  (if ud.1 then min (x.up.getD p 0 + 1) 255 else 0, if ud.2 then min (x.down.getD p 0 + 1) 65535 else 0)

/-- A move: logged, raised, pending until the boundary, runs and since cleared. -/
def govMove (s : State) (l dst cause products : Nat) : State :=
  let x := getLayer s l
  let w := s.gov.logWidx.toNat
  let cap := 2 ^ fld (smpReg s 0x050030) 4 0
  let head := s.psc.step.toNat + l * 2 ^ 40 + x.rung * 2 ^ 50 + dst * 2 ^ 53 + cause * 2 ^ 56
  let s := portWrite s (smpPair s 0x050028 + 16 * (w % cap)) (leBytes 8 head ++ leBytes 8 products)
  let s := { s with gov := { s.gov with logWidx := s.gov.logWidx + 1 } }
  let s := raise s 3 Ev.govMove (BitVec.ofNat 24 (l * 2 ^ 14 + x.rung * 2 ^ 11 + dst * 2 ^ 8 + cause * 2 ^ 6))
  countLife (setLayer s l { x with pending := some dst, since := 0, up := [0, 0, 0], down := [0, 0, 0] }) (7 + cause) 1

/-- The lock byte of a layer in the boundary's sample (R157). -/
def lockByte (s : State) (l : Nat) : Nat :=
  let w := (Tab.get (0 : Word) s.gov.lockSmp (l / 4)).toNat
  fld w (8 * (l % 4) + 7) (8 * (l % 4))

/-- One layer of the decision procedure. -/
def governLayer (s : State) (l : Nat) : State :=
  if !ruleEnabled s l then s else
  let e := ruleBytes s l
  let ladder := fieldAt e 0 2
  let x0 := getLayer s l
  let runs := (List.range 3).map (runsOf s e x0)
  let lk := lockByte s l
  let x := { x0 with since := min (x0.since + 1) 65535, up := runs.map (·.1), down := runs.map (·.2), lock := bitAt lk 0,
                     rung := rungIndex s l ladder, fresh := false }
  let s := setLayer s l x
  let subs := (List.range 3).filter (fun p => fieldAt (subRule e p) 0 1 != 0)
  let ups := subs.filter (fun p => decide (fieldAt (subRule e p) 0 1 ≤ x.up.getD p 0))
  let downs := subs.filter (fun p => decide (fieldAt (subRule e p) 2 2 ≤ x.down.getD p 0))
  let bits := fun (ps : List Nat) => (ps.map (fun p => 2 ^ p)).foldl (· + ·) 0
  let top := fieldAt (ladderBytes (liveImg s) ladder) 0 1 - 1
  if x.lock then
    if fld lk 3 1 > top then raise s 3 Ev.govLockInvalid (pack [(10, l)])
    else if fld lk 3 1 ≠ x.rung then govMove s l (fld lk 3 1) 2 0 else s
  else if subs.isEmpty || decide (x.since < fieldAt e 4 2) then s
  else if !ups.isEmpty && decide (x.rung < top) then govMove s l (x.rung + 1) 0 (bits ups)
  else if downs.length = subs.length ∧ 0 < x.rung then govMove s l (x.rung - 1) 1 (bits downs)
  else s

def govern (s : State) (lockMatch : Bool) : State :=
  if !lockMatch then raiseOpen s 3 Ev.govLockMismatch
  else (List.range (min 1024 (smpReg s 0x050020))).foldl governLayer s

/-! Flowstone counts that steps add (R211, R350): stall counters, idle and issued. -/

def stallNow (s : State) (i : Nat) : BitVec 64 :=
  if i < 16 then Tab.get 0 s.psc.stalls i else if i = 16 then s.psc.idle else s.psc.issued
def lifeStalls (s : State) : State :=
  { s with life := { s.life with
    rec_ := { s.life.rec_ with stalls := (List.range 18).foldl (fun t i =>
      t.upd (0 : BitVec 64) i (fun x => satAdd x (stallNow s i - Tab.get 0 s.life.stallBase i).toNat)) s.life.rec_.stalls },
    stallBase := (List.range 18).map (fun i => (i, stallNow s i)) } }

/-! Audit (R339). -/

/-- Sum of a list of counts. -/
def sumNat (l : List Nat) : Nat := l.foldl (· + ·) 0

/-- Tokens over the live tags of a tensor (R127). -/
def TensorVer.held (v : TensorVer) : Nat := sumNat ((v.tags.filter (fun g => g.2.live)).map (fun g => g.2.tokens))
/-- Units outstanding: a memory channel's and an RLP channel's are the credits the other side has in hand (log 54). -/
def outstanding (s : State) (q : Nat) : Nat :=
  if q = 0 then (s.bmp.reqs.filter (fun r => r.pool.isSome)).length + sumNat (s.bmp.chans.map (fun c => c.2.reqOut + c.2.wdataOut))
  else if q = 1 then sumNat (s.rlp.chans.map (fun c => c.2.txOut + c.2.rx))
  else if q = 2 then s.staging.alloc.length
  else if q = 3 then s.rlp.fbuf.length
  else if q = 4 then sumNat (s.rope.hops.map (fun h => h.2.length))
  else if q = 5 then sumNat (s.ves.map (fun v => v.2.entries.length))
  else if q = 6 then sumNat (s.vers.map (fun v => v.2.held))
  else if q = 7 then s.sump.owners.length
  else sumNat (s.evt.queues.map (fun x => x.2.length))
/-- Issued = returned + reclaimed + outstanding; of version tokens for every tensor (R131, R338, R339). -/
def auditOk (s : State) (q : Nat) : Bool :=
  let u := getUnits s q
  u.issued == u.returned + u.reclaimed + outstanding s q &&
    (q != 6 || s.vers.all (fun v => v.2.acquired == v.2.released + v.2.held))
def auditOne (s : State) (q : Nat) : State :=
  if auditOk s q then s
  else if s.ras.excused.contains q then
    countLife (raise s 6 Ev.auditFailed (BitVec.ofNat 24 (q * 2 ^ 20 + 2 ^ 19))) 6 1
  else
    countLife (raise { s with ras := { s.ras with audit := true }, psc := { s.psc with run := false } } 6 Ev.auditFailed
      (BitVec.ofNat 24 (q * 2 ^ 20))) 5 1
/-- The audit of a step boundary or an abort. -/
def auditStep (s : State) : State :=
  let t := (List.range 9).foldl auditOne s
  { t with ras := { t.ras with excused := [] } }

/-! What a finished RUN leaves (R226), and moves carried to their end (R208, R285). -/

/-- Summary words into consecutive registers of a core's scalar bank; `dest` is core * 64 + register. -/
def writeScalars (s : State) (dest : Nat) : List Word → State
  | [] => s
  | w :: ws =>
    let c := getCore s (dest / 64)
    writeScalars (setCore s (dest / 64) { c with scalar := c.scalar.put (dest % 64) w }) (dest + 1) ws

/-- A RUN finishes: its summary and the slab's counters are written, its lane groups and registers are free. -/
def finishRun (s : State) (o : Op) : State :=
  match o.kind with
  | .run slab groups regs desc true summary dest nz thr sat =>
    let t := writeScalars s dest summary
    let v := getVe t slab
    setVe t slab { v with groups := v.groups &&& ~~~ BitVec.ofNat 4 groups, regs := v.regs &&& ~~~ BitVec.ofNat 6 regs,
                          nz := satAdd v.nz nz, thr := satAdd v.thr thr, sat := satAdd v.sat sat,
                          last := BitVec.ofNat 16 desc }
  | _ => s

/-- Passages give back the units of ownership that a test names (R338). -/
def releaseOwners (s : State) (f : Nat × Nat → Bool) : State :=
  let n := (s.sump.owners.filter f).length
  if n = 0 then s
  else unitBack { s with sump := { s.sump with owners := s.sump.owners.filter (fun o => !f o) } } 7 n

/-- Requests that a test names give back their stream credits at once; each completes without one (R203, R208, R281). -/
def returnCredits (s : State) (f : BmpReq → Bool) : State :=
  unitBack { s with bmp := { s.bmp with reqs := s.bmp.reqs.map (fun r => if f r then { r with pool := none } else r) } } 0
    (s.bmp.reqs.filter f).length
/-- Keep the transfers that a test names, and of the requests to be reissued those of such transfers. -/
def keepJobs (s : State) (f : Job → Bool) : State :=
  let jobs := s.bmp.jobs.filter f
  { s with bmp := { s.bmp with jobs := jobs, redo := s.bmp.redo.filter (fun r => jobs.any (fun j => j.id == r.job)) } }
/-- A transfer of no step: an image fetch, or a telemetry snapshot (R176, R354). -/
def Job.outlasts (j : Job) : Bool := match j.kind with | .image | .tel _ => true | _ => false
/-- Drop what the attempt could not finish, operations and transfers, those of no step apart. -/
def settleOps (s : State) : State :=
  keepJobs { s with psc := { s.psc with ops := [], accepted := [] } } Job.outlasts

/-- Every held staging slot is released but those of frame buffers (R279). -/
def releaseStaging (s : State) : State :=
  let kept := s.staging.alloc.filter (fun kv => isFrameSlot s kv.1)
  let n := s.staging.alloc.length - kept.length
  unitBack { s with staging := { s.staging with bytes := [], alloc := kept, waits := [], epoch := s.staging.epoch + 1 } } 2 n

/-- The bin of a hold of some milliseconds (R349). -/
def holdBin (ms : Nat) : Nat := if ms < 32768 then Nat.log2 ms else 15
/-- A hold of a hop ends: it is counted with its duration. -/
def endHold (s : State) (h : Nat) : State :=
  if !s.rope.holding.getLsbD h then s else
  let ms := max 1 ((s.clock.ts - Tab.get 0 s.rope.since h).toNat / 1000000)
  let rec_ := { s.life.rec_ with ropes := s.life.rec_.ropes.upd 0 (16 * h + holdBin ms) (fun x => satAdd x 1) }
  countLife { s with rope := { s.rope with holding := setBit s.rope.holding h false, holds := satAdd s.rope.holds 1 },
                     life := { s.life with rec_ := rec_ } } 18 1

/-- Finished-tile queues, rope hops and received frames of the step are emptied, with the holds of the rope ended; the rope's tiles would land in
released slots (R203, R263, R338). -/
def clearStepQueues (s : State) : State :=
  let nf := sumNat (s.ves.map (fun v => v.2.entries.length))
  let nt := sumNat (s.rope.hops.map (fun h => h.2.length))
  let nb := s.rlp.fbuf.length
  let s := (List.range 8).foldl endHold s
  let s := { s with ves := s.ves.map (fun v => (v.1, { v.2 with ftq := [], groups := 0, regs := 0, ownerWait := false, runWait := 0 })),
                    rope := { s.rope with hops := [], waiting := [], since := [] },
                    rlp := { s.rlp with expect := [], sent := [], fbuf := [], windows := [], done := [], dense := [],
                                        backlog := s.rlp.backlog.filter (fun x => x.1 != 2),
                                        gathered := [], gwant := [], gsent := [], range := none, childFrag := [], ownFrag := [], fragSent := [],
                                        outFrag := [], abortSeen := false, notice := false, noticeDue := false,
                                        statsSent := false, lost := false } }
  unitBack (unitBack (unitBack s 5 nf) 4 nt) 3 nb

/-- The scheduler as it stands when no step is in progress. -/
def clearScheduler (s : State) : State :=
  { s with psc := { s.psc with run := false, stepOn := false, passages := [], satisfied := [], issuing := none,
                               suspended := none, preempter := none, stopIssue := false, abortDue := false, conds := [],
                               window := [], lastBundle := none, onceAtt := [] },
           img := { s.img with swapTo := none, staged := none } }

/-! Commit (R19, R20). -/

/-- UPD passages of the passage table that are valid. -/
def passageList (s : State) : List Nat := List.range (min 4096 (ptCount s))
def passageDone (s : State) (p : Nat) : Bool :=
  let st := (getPassage s p).status
  st == .completed || st == .resolvedFalse
/-- Every valid passage of a class test has completed. -/
def allDone (s : State) (cls : Nat → Bool) (but : Option Nat) : Bool :=
  (passageList s).all (fun p => let e := pentry s p; !e.valid || !cls e.cls || but == some p || passageDone s p)

/-- Layers take their pending rungs; a stream whose format changes starts afresh, every other delayed stream takes its
next scale (R143, R158). -/
def applyRungs (s : State) : State :=
  { s with gov := { s.gov with layers := s.gov.layers.map (fun kv =>
    (kv.1, match kv.2.pending with | some r => { kv.2 with rung := r, pending := none } | none => kv.2)) } }
def boundaryStream (old s : State) (x : Nat) : State :=
  let a := streamOf old x
  let b := streamOf s x
  if a.fmt ≠ b.fmt then resetSigma s x (streamInit s x) b.fmt
  else if b.delayed then recWrite s x 0x179 1 (recNat s x 0x17A 1) else s
def boundaryScales (s : State) : State :=
  let t := applyRungs s
  (streamList s).foldl (boundaryStream s) t

/-- The lock file as it is live (R157). -/
def sampleLocks (s : State) : State :=
  { s with gov := { s.gov with lockSmp := (List.range 256).map (fun i => (i, liveReg s (0x051000 + 4 * i))) } }

/-- Prefetches that no passage has come to are returned, each as a wrong guess is (R180, R203, R279). -/
def returnGuesses (s : State) : State :=
  let n := ((s.staging.alloc.filter (·.2.spec)).flatMap (·.2.holders)).eraseDups.length
  let s := returnCredits s (fun r => r.pool == some .spec)
  { s with psc := { s.psc with specRet := s.psc.specRet + n } }
/-- The step boundary (R21, R93, R132, R143, R157, R180, R211, R263, R279, R339). -/
def stepBoundary (s : State) : State :=
  let s := settleOps (returnGuesses s)
  let s := boundaryScales s
  let s := boundaryVersions s
  let s := resetSump { s with gov := { s.gov with outlier := [] } }
  let s := clearStepQueues (releaseStaging (clearScheduler s))
  let s := { s with psc := { s.psc with step := s.psc.step + 1, attempt := 0, committed := false, repeats := false,
                                        onceStep := [] },
                    ras := { s.ras with updFail := none, updFrom := none, gatherBad := false, lostWait := false } }
  let s := auditStep (lifeStalls (sampleLocks s))
  if s.img.swapPending then planeSwap s else s

/-- Every tile that the group's gather slots issued so far name and this rank does not own has been written (R259). -/
def gatherDone (s : State) (g : Nat) : Bool := (s.rlp.gwant.filter (fun k => k.1 == g)).all (fun k => s.rlp.gathered.contains k)
/-- Writes of a gather are under way. -/
def gatherWrites (s : State) : Bool := s.bmp.jobs.any (fun j => match j.kind with | .put (some _) => true | _ => false)
/-- The boundary follows once every UPD passage of a committed step has completed, at once where there is none, and every gather is
complete (R21, R259). -/
def tryBoundary (s : State) : State :=
  if s.psc.stepOn && s.psc.committed && allDone s (fun _ => true) none && s.rlp.groups.all (gatherDone s) && !gatherWrites s then
    stepBoundary s
  else s

/-- Commit the step. The statistics come from outcome fragments, or, after `RAS_OUTCOME`, stand in the records already (R20, R334).
DESIGN CHOICE: a commit that arrives after an uncorrectable error, or an array failure, met since STATS was sent commits by R20, and
the issue and the arrays that R333 stopped stay stopped (log 99). -/
def commitStep (s : State) (frags : Option (List Fragment)) (lockMatch : Bool) : State :=
  let s := { s with rlp := { s.rlp with phase := !s.rlp.phase } }
  let s := match frags with
    | some fs => commitScales (fs.foldl commitFragment s)
    | none => s
  let s := (List.range 64).foldl writeCalib (noteRecords s frags.isSome lockMatch)
  let s := commitVersions (govern s lockMatch)
  let s := { s with gov := { s.gov with loc := [], carry := [] },
                    ras := { s.ras with lostWait := false }, rlp := { s.rlp with lost := false } }
  let s := raise s 2 Ev.stepCommit (BitVec.ofNat 24 s.psc.step.toNat)
  let s := countLife (postMailbox s 0 (stepValue s)) 2 1
  tryBoundary { s with psc := { s.psc with committed := true } }

/-! Abort (R131, R140, R208, R263). -/

/-- A passage that was speculative when the abort came raises `passage_undone`. -/
def abortPassage (s : State) (px : Nat × Passage) : State :=
  let live := px.2.status == .running || px.2.status == .ended || px.2.status == .suspended || px.2.status == .undoing
  if px.2.spec && live then
    let t := raiseOpen s 2 Ev.passageUndone
    { t with psc := { t.psc with undos := t.psc.undos + 1 } }
  else s

def abortStep (s : State) : State :=
  let again := s.psc.repeats || s.psc.stepOn
  let s := s.psc.passages.foldl abortPassage s
  let s := settleOps (returnCredits s (fun r => r.pool == some .spec))
  let s := resetSump (abortVersions (releaseOwners s (fun _ => true)))
  let s := { s with gov := { s.gov with loc := [], calib := [], outlier := [] } }
  let s := sampleLevels { s with cores := s.cores.map (fun c => (c.1, { c.2 with notify := [] })) }
  let s := postMailbox s 1 (stepValue s)
  let s := placeSpares (clearStepQueues (releaseStaging (clearScheduler s)))
  let s := { s with psc := { s.psc with repeats := again }, ras := { s.ras with lostWait := false } }
  let s := countLife s 3 1
  let s :=
    if s.psc.attempt = 255 then
      raise { s with psc := { s.psc with limited := true } } 6 Ev.attemptLimit (BitVec.ofNat 24 (s.psc.step.toNat % 65536))
    else { s with psc := { s.psc with attempt := s.psc.attempt + 1 } }
  auditStep (lifeStalls s)

/-- Rows of a burst whose entry into cast row 0 has begun by an ACLK, the first in that of its issue (R59, R67). -/
def LastBurst.begun (b : LastBurst) (now : Nat) : Nat :=
  ((List.range b.rows).filter (fun i => decide (b.at_ + sumNat (b.takes.take i) ≤ now))).length
/-- Rows of an array's last burst that have entered cast row 0: those whose entry has begun, and every row up to one of which a chunk
word has been checked or has left. A row without chunk words tells nothing (R61, R123, R336). -/
def rowsEntered (s : State) (a : Nat) (b : LastBurst) : Nat :=
  let mine := s.sump.chunks.filter (fun c => c.id.array == a && c.op == b.op)
  let seen := (List.range b.rows).filter (fun i =>
    b.full.getD i false && (!mine.any (fun c => c.id.row == b.m + i) || mine.any (fun c => c.id.row == b.m + i && c.stage != .latched)))
  min b.rows (max (b.begun s.clock.aclk) (match seen.getLast? with | some i => i + 1 | none => 0))

/-- Lower the in-flight count of each chunk's target (R88, R336). -/
def dropInflight (s : State) (cs : List Chunk) : State :=
  cs.foldl (fun t c => let k := groupKey c.id.array c.target
                       let g := groupOf t k
                       setGroup t k { g with inflight := g.inflight - 1 }) s
/-- An operation that no chunk word belongs to any more finishes, if it is a burst (R193). -/
def finishBurst (s : State) (op : Nat) : State :=
  match findOp s op with
  | some o =>
    match o.kind with
    | .burst _ => if s.sump.chunks.any (fun c => c.op == op) then s else finishOp s op
    | _ => s
  | none => s

/-- What is left of a burst of which `n` rows have entered. -/
def LastBurst.rest (b : LastBurst) (n : Nat) : LastBurst :=
  { b with m := b.m + n, rows := b.rows - n, takes := b.takes.drop n, full := b.full.drop n, slot := sumNat (b.takes.drop n), done := b.done + n }
/-- The first `n` rows of a stopped array's last burst have entered; the others are taken back, with their chunk words kept for a resume,
and a target of the cut pass shows that pass's k origin (R61, R336). -/
def cutBurst (s : State) (a : Nat) (b : LastBurst) (n : Nat) : State :=
  let x := getArray s a
  let out := fun (c : Chunk) => c.id.array == a && c.op == b.op && decide (b.m + n ≤ c.id.row)
  let cut := s.sump.chunks.filter out
  let ops := if cut.isEmpty then [] else s.psc.ops.filter (fun o => o.id == b.op)
  let isCut := decide (n < b.rows)
  let s := setArray s a { x with cutFlag := isCut, entered := if isCut then b.done + n else 0,
                                 saved := { saved := x.saved.saved ++ cut, ops := x.saved.ops ++ ops, kept := x.active,
                                            next := x.loading, cut := if isCut then some (b.rest n) else none } }
  let s := dropInflight { s with sump := { s.sump with chunks := s.sump.chunks.filter (fun c => !out c) } } cut
  let s := match if isCut then x.active else none with
    | some p => let k := groupKey a p.target
                setGroup s k { groupOf s k with progress := p.kt * (castOf s a).segs }
    | none => s
  finishBurst s b.op
/-- A stop request to an array takes effect at row entry (R61, R336). -/
def stopArray (s : State) (a : Nat) : State :=
  let x := getArray s a
  if x.stopped then s else
  let s := setArray s a { x with stopped := true, stopAt := s.clock.aclk, cutFlag := false, entered := 0,
                                 saved := { Susp.none with kept := x.active, next := x.loading } }
  match x.last with
  | none => s
  | some b => cutBurst s a b (rowsEntered s a b)
def stopArrays (s : State) (as : List Nat) : State := as.foldl stopArray s

/-- A child has still to send a fragment that the merge of this rank waits for (R260). -/
def lacksFragment (s : State) : Bool :=
  match s.rlp.range with
  | some (_, n) => (treeChildren s).any (fun c => (List.range (ceilDiv n 1024)).any (fun i =>
      decide (s.rlp.fragSent.length ≤ i) && (List.lookup (c * 4 + i) s.rlp.childFrag).isNone))
  | none => false
/-- An operation that an abort waits for (R206, R208, R333). A RUN that lacks finished tiles which no drain is to bring, a frame
once the port serves no more, a STATS that lacks a child's fragment, and a move that R252 never completes can finish no more
(log 88). -/
def opBlocks (s : State) (o : Op) : Bool :=
  match o.kind with
  | .run slab _ _ _ false _ _ _ _ _ => o.need == 0 || (getVe s slab).ftq.any (fun e => !e.ready)
  | .frames _ _ _ => portServes s
  | .stats _ _ => portServes s && !lacksFragment s
  | .move _ _ => !s.bmp.jobs.any (fun j => j.kind == .move o.id && j.failed)
  | _ => true
def opsSettled (s : State) : Bool :=
  (s.psc.accepted.isEmpty || headWaits s) && !s.psc.ops.any (opBlocks s) && !s.bmp.jobs.any (fun j => j.kind == .put none && !j.failed)
/-- Abort, or let the operations started finish first: no bundle issues and the arrays stop at row entry (R206, R208, R333). -/
def abortWhenDone (s : State) : State :=
  if opsSettled s then abortStep s
  else stopArrays { s with psc := { s.psc with abortDue := true, stopIssue := true } } (List.range s.silicon.cls.arrays)
/-- The abort that waited follows once the last operation has finished. -/
def dueAbort (s : State) : State :=
  if s.psc.stepOn && s.psc.abortDue && opsSettled s then abortStep s else s

/-- System rank 0 decides abort: the outcome goes to its children, then the step aborts (R261). -/
def rootAbort (s : State) : State := abortWhenDone (sendOutcome s 0 [0, 0, 0, 0])

/-- Send an abort notice to the parent as soon as it is asked for, or decide abort on rank 0; with the port out of
service, abort (R261, R333). Once the abort is decided there is nothing more to call for. -/
def callAbort (s : State) : State :=
  if s.psc.abortDue then s
  else if !portServes s then abortWhenDone s
  else if isRoot s then rootAbort s
  else if s.rlp.statsSent || s.rlp.notice then s
  else { s with rlp := { s.rlp with noticeDue := true } }

/-- Steps 2 to 4 of R333: no further bundle, arrays stop, the abort is called for. -/
def endStep (s : State) : State :=
  if !s.psc.stepOn || s.psc.committed then s
  else callAbort (stopArrays { s with psc := { s.psc with stopIssue := true } } (List.range s.silicon.cls.arrays))

/-- An uncorrectable error (R333): unit, slab and low address bits. -/
def uncorrectable (s : State) (unit slab addr : Nat) : State :=
  endStep (countLife (raise s 6 Ev.uncorrectable
    (BitVec.ofNat 24 (unit % 16 * 2 ^ 20 + slab % 8 * 2 ^ 17 + addr % 2 ^ 17))) 14 1)

end Sys2Proof.Machine
end

