-- ==== Sys2Proof/Machine/Faults.lean ====
section
/-! DEFINITION. Transient faults, leaky counts and the declaration of permanent faults (R71, R327, R328). -/

namespace Sys2Proof.Machine

/-- Key of an element: class and index. -/
def elemKey (cls index : Nat) : Nat := cls * 65536 + index
/-- Flowstone entry of an element (R348). -/
def elemEntry (cls index : Nat) : Nat :=
  if cls = 0 then index else if cls = 1 then 64 + index else if cls = 2 then 98 + index / 264
  else if cls = 3 then 170 + index else 250 + index
/-- Limit T of a class. -/
def faultLimit (s : State) (cls : Nat) : Nat := fld (liveReg s (0x280000 + 4 * cls)).toNat 15 0
/-- Window W of a class in ms. -/
def faultWindow (s : State) (cls : Nat) : Nat :=
  fld (liveReg s (0x280000 + 4 * cls)).toNat 31 16 * (if cls < 3 then 1 else 60)
def leakyCount (s : State) (cls index : Nat) : Nat := Tab.get 0 s.ras.leaky (elemKey cls index)
def isPermanent (s : State) (cls index : Nat) : Bool := s.ras.perm.contains (elemKey cls index)

/-- Declare an element permanently faulty. -/
def declarePermanent (s : State) (cls index : Nat) : State :=
  let s := { s with ras := { s.ras with perm := elemKey cls index :: s.ras.perm },
                    life := { s.life with acc := { s.life.acc with
                      perms := (elemEntry cls index :: s.life.acc.perms).eraseDups } } }
  raise s 6 Ev.faultPermanent (BitVec.ofNat 24 (cls * 2 ^ 20 + index % 65536))

/-- Count a transient fault; the answer says whether it declares the element permanently faulty. -/
def transient (s : State) (cls index : Nat) : State × Bool :=
  let c := min (faultLimit s cls) (leakyCount s cls index + 1)
  let s := { s with ras := { s.ras with leaky := s.ras.leaky.put (elemKey cls index) c },
                    life := { s.life with acc := { s.life.acc with
                      faults := s.life.acc.faults.upd 0 (elemEntry cls index) (fun x => satAdd x 1) } } }
  if c = faultLimit s cls ∧ !isPermanent s cls index then (declarePermanent s cls index, true) else (s, false)

/-- Physical rows or columns that carry logical ones, in ascending order (R74). -/
def inService (s : State) (array : Nat) (isCol : Bool) : List Nat :=
  ((List.range (physSize s)).filter (fun i =>
    !(s.silicon.fuseMap ++ s.ras.retired).any (fun e => e.array == array && e.isCol == isCol && e.index == i))).take 256

/-- A mismatch counts against every cell column of a cast column; a column that becomes permanent stops its array for
the localisation test (R71, R329). -/
def columnFaults (s : State) (a col width : Nat) : State :=
  let p := physOf s a
  let cols := slice (inService s p true) (col * width) (col * width + width)
  cols.foldl (fun t c =>
    let r := transient t 2 (264 * p + c)
    if r.2 then
      let u := { r.1 with ras := { r.1.ras with locPend := r.1.ras.locPend ++ [(p, c)] } }
      stopArray u a
    else r.1) s

end Sys2Proof.Machine
end

