-- ==== Sys2Proof/Machine/Ramp.lean ====
section
/-! DEFINITION. What power does to bundle issue: bubbles, ramps, the droop pause (R355 to R358). -/

namespace Sys2Proof.Machine

/-- A RW register as the ACLK domain sees it: as it stood at the last bundle boundary of the passage that issues, and as it stands
while none does (R10, log 108). -/
def aclkReg (s : State) (a : Nat) : Word :=
  if s.psc.issuing.isSome then Tab.get (regReset a) s.regs.seen a else liveReg s a
/-- A bundle boundary: the ACLK domain sees `PWR_CTRL` and `PWR_RAMP` as they now stand (R10). -/
def latchAclk (s : State) : State :=
  { s with regs := { s.regs with seen := (s.regs.seen.put 0x2A0000 (liveReg s 0x2A0000)).put 0x2A0004 (liveReg s 0x2A0004) } }

def pwrStart (s : State) : Nat := fld (aclkReg s 0x2A0004).toNat 19 16
def pwrHandshake (s : State) : Bool := (aclkReg s 0x2A0000).getLsbD 0

/-- The ramp floor takes its start value, and the request drops; the ACLK count is kept, for no idle time before it calls for another ramp
(R357). -/
def beginRamp (s : State) : State :=
  { s with pins := { s.pins with rampReq := false }, pwr := { s.pwr with r := pwrStart s, waiting := false, began := s.clock.aclk } }
/-- The ramp starts on an acknowledge that answered the request: with the request the acknowledge goes (log 27). -/
def ackRamp (s : State) : State :=
  let t := beginRamp s
  { t with pins := { t.pins with rampAck := false } }
/-- A load ramp starts, after the handshake where one is enabled and the acknowledge is not high already (R357). -/
def startRamp (s : State) : State :=
  if pwrHandshake s && !s.pins.rampAck then { s with pins := { s.pins with rampReq := true }, pwr := { s.pwr with waiting := true } }
  else beginRamp s

/-- The bubble count k (R356). -/
def bubbleCount (s : State) : Nat := max s.pwr.b s.pwr.r
/-- The present ACLK is a bubble (R356). -/
def isBubble (s : State) : Bool :=
  let n := s.clock.aclk % 16
  let k := bubbleCount s
  decide ((n + 1) * k / 16 > n * k / 16)
/-- Power holds issue in the present ACLK (R356 to R358). -/
def powerHolds (s : State) : Bool := s.pwr.paused || s.pwr.waiting || isBubble s
/-- Bubbles among the ACLK before `x` under count `k` (R356). -/
def bubblesBefore (k x : Nat) : Nat := x / 16 * k + x % 16 * k / 16
/-- `n` ACLK in which a cause other than power holds issue: power comes first in each (R210), and each bubble also counts in global
counter 17 (R347, R356). -/
def heldAclk (s : State) (cause n : Nat) : State :=
  let k := bubbleCount s
  let bubbles := bubblesBefore k (s.clock.aclk + n) - bubblesBefore k s.clock.aclk
  let power := if s.pwr.paused || s.pwr.waiting then n else bubbles
  passAclk (if s.psc.run then countStall (countStall (countLife s 17 bubbles) 14 power) cause (n - power) else s) n

end Sys2Proof.Machine
end

