-- ==== Sys2Proof/Machine/Outcome.lean ====
section
/-! DEFINITION. Statistics fragments, their merge up the fixed tree, and the decision to commit (R19, R157, R260,
R261). -/

namespace Sys2Proof.Machine

def u64max : Nat := 2 ^ 64 - 1

/-- Fragments of a range of `n` streams. -/
def fragCount (n : Nat) : Nat := ceilDiv n 1024
/-- First stream and stream count of fragment `i` of a range. -/
def fragRange (first n i : Nat) : Nat × Nat := (first + 1024 * i, min 1024 (n - 1024 * i))

/-- A fragment's payload; fragment 0 ends with the lock CRCs. -/
def Fragment.bytes (f : Fragment) (i : Nat) : List Byte :=
  f.streams.flatMap StreamStat.bytes ++ (if i = 0 then leBytes 4 f.lockMin.toNat ++ leBytes 4 f.lockMax.toNat else [])
def Fragment.ofBytes (first n i : Nat) (b : List Byte) : Fragment :=
  { first := first,
    streams := (List.range n).map (fun j => StreamStat.ofBytes (slice b (364 * j) (364 * j + 364))),
    lockMin := if i = 0 then BitVec.ofNat 32 (fieldAt b (364 * n) 4) else 0,
    lockMax := if i = 0 then BitVec.ofNat 32 (fieldAt b (364 * n + 4) 4) else 0 }
/-- Merge two fragments of the same streams: exact sums, maximum, minimum and maximum of the lock CRCs. -/
def Fragment.merge (a b : Fragment) : Fragment :=
  { first := a.first, streams := List.zipWith (StreamStat.merge u64max) a.streams b.streams,
    lockMin := BitVec.ofNat 32 (min a.lockMin.toNat b.lockMin.toNat),
    lockMax := BitVec.ofNat 32 (max a.lockMax.toNat b.lockMax.toNat) }

/-- CRC-32C of the sampled lock file (R157). -/
def lockCrc (s : State) : Word :=
  crc32c ((List.range 256).flatMap (fun i => leBytes 4 (Tab.get (0 : Word) s.gov.lockSmp i).toNat))
/-- This rank's own fragment `i` of a range. -/
def ownFragment (s : State) (first n i : Nat) : Fragment :=
  let r := fragRange first n i
  { first := r.1, streams := (List.range r.2).map (fun j => Tab.get StreamStat.zero s.gov.loc (r.1 + j)),
    lockMin := lockCrc s, lockMax := lockCrc s }

/-- The merge of fragment `i`, once this rank and every child have given theirs. -/
def mergedFragment (s : State) (i : Nat) : Option Fragment :=
  (treeChildren s).foldl (fun (o : Option Fragment) c =>
    match o, List.lookup (c * 4 + i) s.rlp.childFrag with
    | some f, some g => some (f.merge g)
    | _, _ => none) (List.lookup i s.rlp.ownFrag)

/-- Commit once every fragment of a commit outcome is held and every passage but the UPD ones has completed (R19,
R261). -/
def tryCommit (s : State) : State :=
  match s.rlp.range with
  | some (_, n) =>
    let fs := (List.range (fragCount n)).filterMap (fun i => List.lookup i s.rlp.outFrag)
    if s.psc.stepOn && !s.psc.committed && !s.psc.abortDue && fs.length == fragCount n && allDone s (· != 4) none then
      commitStep s (some fs) (match fs.head? with | some f => f.lockMin == f.lockMax | none => true)
    else s
  | none => s

/-- System rank 0 decides commit when its own merge of every fragment is complete (R261). -/
def rootTry (s : State) : State :=
  match s.rlp.range with
  | some (_, n) =>
    let fs := (List.range (fragCount n)).filterMap (fun i => (mergedFragment s i).map (fun f => (i, f)))
    if isRoot s && s.psc.stepOn && !s.psc.committed && !s.psc.abortDue && s.rlp.outFrag.isEmpty && fs.length == fragCount n then
      let s := { s with rlp := { s.rlp with outFrag := fs, statsSent := true } }
      tryCommit (fs.foldl (fun t f => sendOutcome t f.1 ([1, 0, 0, 0] ++ f.2.bytes f.1)) s)
    else s
  | none => s

end Sys2Proof.Machine
end

