-- ==== Sys2Proof/Machine/Scheduler.lean ====
section
/-! DEFINITION. The passage scheduler: step start and the checks of its tables, readiness, fetches, selection, the
prediction window, speculation, variant swaps, pre-emption, completion (R174, R181, R196 to R208, R279, R280, R335 to
R337), and writes of governor state (R156). -/

namespace Sys2Proof.Machine

/-! Variants and failed arrays (R76, R174). -/

/-- The variant index a passage's reference resolves to; none where its layer gives no rung. -/
def variantIndex (s : State) (e : PEntry) : Option Nat :=
  if e.byLayer then
    let l := fld e.variant 9 0
    if ruleEnabled s l then some (fieldAt (rungOf s l) 8 2 + fld e.variant 15 10) else none
  else some (fld e.variant 5 0)
/-- The variant, where the live image has it. -/
def resolveVariant (s : State) (e : PEntry) : Option Nat :=
  match variantIndex s e with
  | some v => if v < imgVariants s then some v else none
  | none => none
/-- Raise `variant_invalid` once per passage and attempt (R174, R308). -/
def noteVariant (s : State) (p : Nat) (e : PEntry) : State :=
  match variantIndex s e with
  | none => notePassage s 2 Ev.variantInvalid p (BitVec.ofNat 24 (p % 4096 * 2 ^ 12 + 2 ^ 11))
  | some v =>
    if v < imgVariants s then s
    else notePassage s 2 Ev.variantInvalid p (BitVec.ofNat 24 (p % 4096 * 2 ^ 12 + v % 2 ^ 7))
/-- A variant enables an array that has failed (R76). -/
def variantUsesFailed (s : State) (v : Nat) : Bool :=
  s.ras.failed.any (fun a => (castOfVariant (liveImg s) v a).enabled)

/-! Validation of the passage table (R198). -/

/-- Slabs that a roped fetch reaches beyond slab 0 (R289). -/
def ropeReach (img : List Byte) (v slabs : Nat) : Nat :=
  let hops := fieldAt (imgSection img 3 v) 10 1
  ((List.range (slabs - 1)).takeWhile (fun h => bitAt hops h)).length
/-- A fetch lies in its partition's window and within its reservation (R278, R280). -/
def entryFits (s : State) (v : Nat) (e : REntry) : Bool :=
  let slabs := if e.rope then List.range (ropeReach (liveImg s) v s.slabs + 1) else [e.slab]
  slabs.all (fun sl =>
    let p := partOfVariant (liveImg s) v sl e.part
    p.kind != 0 && decide (e.slot * 65536 + e.bytes ≤ (p.slots + p.maxLoan) * 65536) &&
      decide (ceilDiv e.bytes 65536 ≤ p.slots))
def namesValid (s : State) (p : Nat) : Bool := decide (p < ptCount s) && (pentry s p).valid

def REntry.ok (s : State) (variant : Option Nat) (e : REntry) : Bool :=
  !e.reserved && (e.kind == 1 || e.kind == 2) && decide (e.part < 32) && decide (1 ≤ e.bytes) && decide (e.bytes ≤ 2 ^ 25) &&
    (e.rope || decide (e.slab < s.slabs)) && (match variant with | some v => entryFits s v e | none => true) &&
    (if e.kind = 2 then namesValid s e.ref else !e.versioned || decide (e.ref < 1024))

/-- A valid entry passes R198. -/
def passageOk (s : State) (p : Nat) : Bool :=
  let e := pentry s p
  !e.reserved && decide (1 ≤ e.cls) && decide (e.cls ≤ 6) && decide (16 ≤ e.blen) && decide (e.blen ≤ 2 ^ 26) &&
    decide (e.nctx ≤ 256) && decide (e.nres ≤ 64) && e.bundles % 8 == 0 && (e.succ == 0xFFFF || namesValid s e.succ) &&
    (!e.spec || (e.cls != 4 && e.cls != 5 && e.cond != 0)) &&
    (rentries s p).all (fun r => r.2.ok s (resolveVariant s e))

/-- Reserved fields of an entry, its contexts and its residency set, one event per structure; then `passage_invalid`. -/
def checkPassage (s : State) (p : Nat) : State :=
  let e := pentry s p
  if !e.valid then s else
  let s := noteTable s (ptBase s + 64 * p) 64
  let s := if e.reserved then reservedRead s 2 (ptBase s + 64 * p) else s
  let s := (List.range (min 256 e.nctx)).foldl (fun t i =>
    let t := noteTable t (ctxAddr t p i) 64
    if (ctxOf t p i).reserved then reservedRead t 2 (ctxAddr t p i) else t) s
  let s := (List.range (min 64 e.nres)).foldl (fun t i =>
    let t := noteTable t (e.res + 32 * i) 32
    if (rentry t p i).reserved then reservedRead t 2 (e.res + 32 * i) else t) s
  if passageOk s p then s else raise s 2 Ev.passageInvalid (pack [(12, p)])

/-! Tables of the governor and of streams at step start (R14, R135, R143, R149, R155). -/

def checkRule (s : State) (l : Nat) : State :=
  let b := ruleBytes s l
  let s := noteTable s (smpPair s 0x050018 + 96 * l) 96
  let s := if ruleReserved b then reservedRead s 3 (smpPair s 0x050018 + 96 * l) else s
  if ruleEnabledBit b && !ruleOk s b then raise s 3 Ev.ruleInvalid (pack [(10, l)]) else s
/-- A layer whose state no one has written stands on its ladder's initial rung from now on (R156). -/
def settleLayer (s : State) (l : Nat) : State :=
  let x := getLayer s l
  if x.fresh && ruleEnabled s l then
    setLayer s l { x with rung := rungIndex s l (fieldAt (ruleBytes s l) 0 2), fresh := false }
  else s
def checkOutliers (s : State) (x : Nat) : State :=
  let st := streamOf s x
  if st.outlier = 0 then s
  else
    let s := noteTable s (smpPair s 0x070000 + 260 * st.outlier) 260
    let s := if decide (st.outlier < smpReg s 0x070008) && fieldAt (outlierBytes s st.outlier) 2 2 != 0 then
        raiseOnceStep s 3 Ev.reservedWrite (2 ^ 32 + st.outlier)
          (pack [(3, 7), (21, (smpPair s 0x070000 + 260 * st.outlier) / 4)])
      else s
    if st.role ≠ 1 ∨ !outlierOk s st.outlier then raiseOnceStep s 3 Ev.outlierInvalid st.outlier (pack [(10, st.outlier)]) else s
def checkStream (s : State) (x : Nat) : State :=
  let b := streamBytes s x
  let s := noteTable (noteTable s (smpPair s 0x050000 + 32 * x) 32) (recAddr s x) 512
  let s := if streamReserved b then reservedRead s 3 (smpPair s 0x050000 + 32 * x) else s
  let s := if streamOk s b then checkOutliers s x else raiseOnceStep s 3 Ev.streamInvalid x (pack [(12, x)])
  let s := noteRecord s x
  let f := (streamOf s x).fmt
  if recNat s x 0x178 1 ≠ f then resetSigma s x (streamInit s x) f else s
/-- A stream named beyond the table's count is invalid too (R376). -/
def noteStream (s : State) (x : Nat) : State :=
  if x ≠ 0xFFFF ∧ smpReg s 0x050008 ≤ x then raiseOnceStep s 3 Ev.streamInvalid x (pack [(12, x)]) else s

/-- The first attempt of a step samples the tables and checks them (R198, R367). -/
def firstAttempt (s : State) : State :=
  let s := { s with psc := { s.psc with sample := { mem := s.hostMem, phase := s.rlp.phase, regs := s.regs.live }, onceStep := [] } }
  let s := markBindings s
  let layers := List.range (min 1024 (smpReg s 0x050020))
  let s := layers.foldl checkRule s
  let s := layers.foldl settleLayer s
  let s := (streamList s).foldl checkStream s
  (passageList s).foldl checkPassage s

/-! Holders of staging slots (R279). -/

/-- The variant a passage runs under, whichever is in force meanwhile (R174, R182). -/
def passVariant (s : State) (p : Nat) : Nat := (resolveVariant s (pentry s p)).getD s.img.variant

/-- Slabs and slots a residency entry covers. -/
def entryCovers (s : State) (v : Nat) (e : REntry) (k : Nat) : Bool :=
  let slabs := if e.rope then List.range (ropeReach (liveImg s) v s.slabs + 1) else [e.slab]
  slabs.any (fun sl => e.slots.any (fun x => allocKey sl e.part x == k))
/-- A passage that has not completed has the slot in its residency set. -/
def slotNeeded (s : State) (k : Nat) : Bool :=
  (passageList s).any (fun p => (pentry s p).valid && !passageDone s p &&
    (rentries s p).any (fun r => entryCovers s (passVariant s p) r.2 k))
/-- Release every slot whose holders have completed and that no passage to come needs. -/
def sweepSlots (s : State) : State :=
  let gone := s.staging.alloc.filter (fun kv => !kv.2.fixed && kv.2.holders.all (passageDone s) && !slotNeeded s kv.1)
  gone.foldl (fun t kv => releaseSlot t kv.1) s

/-! Prefetch and allocation (R202, R203, R279, R280). -/

/-- Stream credits of a pool that requests hold (R281). -/
def poolOut (s : State) (p : CreditPool) : Nat := (s.bmp.reqs.filter (fun r => r.pool == some p)).length
/-- Free credits of the speculative pool (R202, R281). -/
def specCredits (s : State) : Nat := 192 - poolOut s .spec
def fetchJob (s : State) (p i : Nat) : Bool := s.bmp.jobs.any (fun j => j.kind == .fetch p i)
def ropeJob (s : State) (p i : Nat) : Bool :=
  s.rope.hops.any (fun h => h.2.any (fun t => t.owner == .fetch p i)) ||
    s.rope.waiting.any (fun h => h.2.any (fun t => t.owner == .fetch p i))
/-- Slots that a passage's prefetch holds. -/
def prefetched (s : State) (p : Nat) : Tab Alloc := s.staging.alloc.filter (fun kv => kv.2.spec && kv.2.holders.contains p)
def hasPrefetch (s : State) (p : Nat) : Bool := !(prefetched s p).isEmpty

/-- A transfer is a fetch of a passage. -/
def Job.ofPassage (j : Job) (p : Nat) : Bool := match j.kind with | .fetch q _ => q == p | _ => false
/-- A passage's prefetch gives up a slot, which stays held while another one's holds it. -/
def dropHolder (p : Nat) (s : State) (k : Nat) : State :=
  match allocOf s k with
  | some a =>
    let h := a.holders.filter (· != p)
    if h.isEmpty then releaseSlot s k
    else { s with staging := { s.staging with alloc := s.staging.alloc.put k { a with holders := h } } }
  | none => s
/-- Return what a prefetch holds: its credits and slots are free at once, its transfers dropped, its entries unsatisfied (R203). -/
def returnPrefetch (s : State) (p : Nat) : State :=
  if !hasPrefetch s p then s else
  let mine := prefetched s p
  let lost := fun (x : Nat × Nat) => x.1 == p && mine.any (fun kv => entryCovers s (passVariant s p) (rentry s p x.2) kv.1)
  let sat := s.psc.satisfied.filter (fun x => !lost x)
  let s := mine.foldl (fun t kv => dropHolder p t kv.1) s
  let s := returnCredits s (fun r => r.pool == some .spec && s.bmp.jobs.any (fun j => j.id == r.job && j.spec && j.ofPassage p))
  let s := keepJobs s (fun j => !(j.spec && j.ofPassage p))
  { s with psc := { s.psc with satisfied := sat, specRet := s.psc.specRet + 1,
                               passages := s.psc.passages.put p { getPassage s p with readyAt := none } } }

/-- A passage's prefetch holds slots of a partition. -/
def prefetchIn (s : State) (slab part p : Nat) : Bool :=
  (prefetched s p).any (fun kv => kv.1 / 32768 == slab && kv.1 / 1024 % 32 == part)
/-- Take slots for foreground work, displacing prefetches that hold slots of the partition, from the youngest window entry on
(R203); none where the allocation must wait. `n` bounds the entries displaced. -/
def allocateFg (s : State) (slab part : Nat) (slots : List Nat) (passage : Nat) (fixed : Bool) : Nat → Option State
  | 0 => allocate s slab part slots passage false fixed
  | n + 1 =>
    match allocate s slab part slots passage false fixed with
    | some t => some t
    | none =>
      match (s.psc.window.filter (fun q => q != passage && prefetchIn s slab part q)).getLast? with
      | some q => allocateFg (returnPrefetch s q) slab part slots passage fixed n
      | none => none

/-- Allocate in the stream's order, or wait in it (R280). -/
def requestSlots (s : State) (slab part : Nat) (slots : List Nat) (passage : Nat) : State :=
  let wait := { s with staging := { s.staging with
    waits := s.staging.waits ++ [{ slab := slab, part := part, slots := slots, passage := passage, spec := false }] } }
  if s.staging.waits.any (fun w => w.slab == slab && w.part == part) then wait
  else match allocateFg s slab part slots passage false 3 with
    | some t => t
    | none => wait
/-- Every slot of a list is held with the passage among its holders. -/
def holdsAll (s : State) (slab part : Nat) (slots : List Nat) (passage : Nat) : Bool :=
  slots.all (fun x => match allocOf s (allocKey slab part x) with
    | some a => a.holders.contains passage
    | none => false)
/-- Hold one slot for a write of a passage: it joins the stream's allocations unless one of the passage's waits there already. The
answer says whether it is held (R279, R280). -/
def holdSlot (s : State) (slab part slot passage : Nat) : State × Bool :=
  if holdsAll s slab part [slot] passage then (s, true)
  else if s.staging.waits.any (fun w => w.slab == slab && w.part == part && w.passage == passage) then (s, false)
  else
    let t := requestSlots s slab part [slot] passage
    (t, holdsAll t slab part [slot] passage)

/-- The head of a stream's waiting allocations is served once it fits (R280). -/
def serveWait (s : State) (slab part : Nat) : State :=
  match takeFirst (fun (w : AllocReq) => w.slab == slab && w.part == part) s.staging.waits with
  | some (w, rest) =>
    match allocateFg s slab part w.slots w.passage false 3 with
    | some t => { t with staging := { t.staging with waits := rest } }
    | none => s
  | none => s

/-- The host address of a fetch: its own, or that of the version it names (R126, R197). -/
def fetchAddr (s : State) (e : REntry) : Option Nat :=
  if e.versioned then (verRef s e.ref e.binding e.current).map (fun b => addr52 (verBuffer s e.ref b e.orderT + e.addr))
  else some e.addr

/-- Issue the fetch of an unsatisfied entry, on its stream or as a prefetch (R202, R279). -/
def startFetch (s : State) (p i : Nat) (spec : Bool) : State :=
  let e := rentry s p i
  if e.kind ≠ 1 || s.psc.satisfied.contains (p, i) || fetchJob s p i || ropeJob s p i then s else
  match fetchAddr s e with
  | none => s
  | some addr =>
    let slab := if e.rope then 0 else e.slab
    let job : Job := { id := s.bmp.nextJob, kind := .fetch p i, reads := true, writes := false, src := addr, dst := 0,
                       slab := slab, part := e.part, off := e.slot * 65536, len := e.bytes, rdIssued := 0, rdDone := 0,
                       wrIssued := 0, wrDone := 0, rdSince := s.bmp.nextJob, buf := [], failed := false, spec := spec }
    let go := fun (t : State) => { t with bmp := { t.bmp with jobs := t.bmp.jobs ++ [job], nextJob := t.bmp.nextJob + 1 } }
    if spec then
      match allocate s slab e.part e.slots p true false with
      | some t => go t
      | none => s
    else go (requestSlots s slab e.part e.slots p)
def startFetches (s : State) (p : Nat) (spec : Bool) : State :=
  (List.range (pentry s p).nres).foldl (fun t i => startFetch t p i spec) s

/-! Readiness (R199). -/

def condOf (s : State) (c : Nat) : Option Bool := List.lookup c s.psc.conds
/-- A residency entry is satisfied (R197). -/
def entrySatisfied (s : State) (p i : Nat) (e : REntry) : Bool :=
  if e.kind = 2 then passageDone s e.ref else s.psc.satisfied.contains (p, i)
/-- Every versioned reference resolves, and none raised `version_unbound` earlier in the attempt (R126, R130). -/
def versionsOk (s : State) (p : Nat) : Bool :=
  !(getPassage s p).unbound && (rentries s p).all (fun r => r.2.kind != 1 || !r.2.versioned ||
    ((verOk s r.2.ref || (pentry s p).cls == 4) && (verRef s r.2.ref r.2.binding r.2.current).isSome))
/-- Events of one versioned reference: reserved fields of its descriptor, a descriptor that fails, a clear binding register. DESIGN
CHOICE: `version_unbound` is raised when the passage is first considered, once for each such reference and attempt (R130,
log 101). -/
def noteVersion (s : State) (p i : Nat) (e : REntry) : State :=
  let s := noteVer s e.ref
  let s := if verOk s e.ref then s else raiseOpenStep s 2 Ev.versionInvalid e.ref
  if (verRef s e.ref e.binding e.current).isNone then
    let s := raiseOpenPassage s 2 Ev.versionUnbound (p * 64 + i)
    setPassage s p { getPassage s p with unbound := true }
  else s
def noteVersions (s : State) (p : Nat) : State :=
  (rentries s p).foldl (fun t r => if r.2.kind == 1 && r.2.versioned then noteVersion t p r.1 r.2 else t) s
/-- The scheduler considers the passage: it may start but for its variant, versions and residency. -/
def considers (s : State) (p : Nat) : Bool :=
  let e := pentry s p
  e.valid && passageOk s p && (getPassage s p).status == .notStarted && (e.cls != 4 || s.psc.committed) &&
    (e.cond == 0 || condOf s e.cond == some true || (e.spec && condOf s e.cond == none))
def variantOk (s : State) (p : Nat) : Bool :=
  match resolveVariant s (pentry s p) with
  | some v => !variantUsesFailed s v
  | none => false
def ready (s : State) (p : Nat) : Bool :=
  considers s p && variantOk s p && versionsOk s p && (rentries s p).all (fun r => entrySatisfied s p r.1 r.2)

/-- A passage whose cond is false before it starts never runs (R199). -/
def dropFalse (s : State) (p : Nat) : State :=
  let e := pentry s p
  let x := getPassage s p
  if e.valid && x.status == .notStarted && e.cond != 0 && condOf s e.cond == some false then
    setPassage s p { x with status := .resolvedFalse }
  else s

/-- What a passage waits for is no more than its fetches: these are issued at readiness (R279), and else ahead of it on speculative
credits (R202). -/
def fetchesDue (s : State) (p : Nat) : Bool :=
  variantOk s p && versionsOk s p &&
    (rentries s p).all (fun r => r.2.kind == 1 || entrySatisfied s p r.1 r.2)
/-- Consider one passage: events, fetches, and the first ACLK of its present run of readiness. While a passage issues, the fetches of a
window entry stand on speculative credits alone (R202). -/
def considerPassage (s : State) (p : Nat) : State :=
  let s :=
    if considers s p then
      let t := noteVersions (noteVariant s p (pentry s p)) p
      if fetchesDue t p && (t.psc.issuing.isNone || !t.psc.window.contains p) then startFetches t p false else t
    else s
  let x := getPassage s p
  if x.status ≠ .notStarted then s
  else if ready s p then
    (if x.readyAt.isNone then setPassage s p { x with readyAt := some s.clock.aclk } else s)
  else if x.readyAt.isSome then setPassage s p { x with readyAt := none }
  else s
/-- Fetches of the window's entries that have found their slots (R202). -/
def prefetchWindow (s : State) : State :=
  s.psc.window.foldl (fun t q => if passageOk t q && (getPassage t q).status == .notStarted then startFetches t q true else t) s
/-- Passages whose cond is false are dropped, the window's fetches start, and every passage is considered, in ascending index (R199,
R202). -/
def refresh (s : State) : State :=
  if s.psc.run && s.psc.stepOn && !s.psc.stopIssue then
    (passageList s).foldl considerPassage (prefetchWindow ((passageList s).foldl dropFalse s)) else s

/-- One ACLK passes. -/
def advance (s : State) : State := passAclk (refresh s) 1

/-! Step start (R18, R199, R261, R311, R323, R357). -/

/-- A write that sets run (R199). An abort that waits for nothing more is done first. -/
def runSet (s : State) : State :=
  let s := dueAbort s
  if s.psc.run then s
  else if s.boot.stage ≠ 0xA || s.ras.audit || s.psc.limited || s.ras.lostWait then
    raise s 0 Ev.startNotReady (BitVec.ofNat 24 (s.boot.stage.toNat * 2 ^ 20))
  else
    let s := if s.psc.repeats then s else readGroups (firstAttempt s)
    let s := { s with psc := { s.psc with run := true, stepOn := true, repeats := false, onceAtt := [], passages := [],
                                          satisfied := [] },
                      gov := { s.gov with loc := s.gov.carry, calib := [] } }
    let s := openMailbox s 0
    refresh (startRamp s)

/-! Selection and the prediction window (R200, R202). -/

/-- `a` comes before `b`: larger priority, then earlier readiness; equal ones keep the lower index. -/
def better (s : State) (a b : Nat) : Bool :=
  let pa := (pentry s a).prio
  let pb := (pentry s b).prio
  decide (pa > pb) || (pa == pb && decide ((getPassage s a).readyAt.getD 0 < (getPassage s b).readyAt.getD 0))
def selectPassage (s : State) : Option Nat :=
  (passageList s).foldl (fun best p =>
    if !ready s p then best
    else match best with
      | none => some p
      | some b => if better s p b then some p else some b) none

/-- Follow succ from a passage, taking those that may still start, until the window holds three. -/
def chain (s : State) (fuel cur : Nat) (win : List Nat) : List Nat :=
  match fuel with
  | 0 => win
  | n + 1 =>
    if 3 ≤ win.length then win else
    let e := pentry s cur
    if e.succ = 0xFFFF ∨ !namesValid s cur then win
    else if (getPassage s e.succ).status == .notStarted && !win.contains e.succ then chain s n e.succ (win ++ [e.succ])
    else chain s n e.succ win
/-- The window after passage `p` starts. -/
def nextWindow (s : State) (p : Nat) : List Nat :=
  let kept := if s.psc.window.contains p then s.psc.window.filter (· != p) else []
  let w := chain s (ptCount s) (kept.getLast?.getD p) kept
  if 3 ≤ w.length then w else
  let more := (passageList s).filter (fun q => (pentry s q).valid && (getPassage s q).status == .notStarted &&
    !w.contains q && !(rentries s q).all (fun r => entrySatisfied s q r.1 r.2))
  w ++ more.take (3 - w.length)
/-- Update the window: returns of wrong guesses, then prefetches in window order (R202, R203). -/
def updateWindow (s : State) (p : Nat) : State :=
  let w := nextWindow s p
  let gone := s.psc.window.filter (fun q => q != p && !w.contains q)
  let s := { s with
    bmp := { s.bmp with
      reqs := s.bmp.reqs.map (fun r => match s.bmp.jobs.find? (fun j => j.id == r.job && j.ofPassage p) with
        | some j => if r.pool == some .spec then { r with pool := some (.stream j.slab j.part) } else r
        | none => r),
      jobs := s.bmp.jobs.map (fun j => if j.ofPassage p then { j with spec := false } else j) },
    staging := { s.staging with alloc := s.staging.alloc.map (fun kv =>
      if kv.2.holders.contains p then (kv.1, { kv.2 with spec := false }) else kv) } }
  let s := gone.foldl returnPrefetch s
  prefetchWindow { s with psc := { s.psc with window := w } }

/-- The variant of the first passage of the window, if it is another than the one in force, is preloaded; the staged registers hold one
variant (R181). -/
def predictVariant (s : State) : State :=
  match s.img.swapTo, s.psc.window.head? with
  | none, some q =>
    match resolveVariant s (pentry s q) with
    | some v => if v = s.img.variant then s else { s with img := { s.img with staged := some v } }
    | none => s
  | _, _ => s

/-- Start a passage: it issues next, after a variant swap where one is needed (R200, R204). -/
def beginPassage (s : State) (p : Nat) : State :=
  let s := latchAclk (placeSpares s)
  let e := pentry s p
  let x := { getPassage s p with status := .running, spec := e.cond != 0 && condOf s e.cond == none, ptr := e.bundles,
                                 bundle := 0, gap := 0, loadTill := 0, rowTill := 0, fetchTill := s.clock.aclk + Config.fetchTime s.clock.aclk }
  let s := setPassage s p x
  let s := { s with psc := { s.psc with issuing := some p, lastBundle := none } }
  let s := match resolveVariant s e with
    | some v => if v = s.img.variant then { s with img := { s.img with swapTo := none } }
        else { s with img := { s.img with swapTo := some v, staged := some v } }
    | none => s
  predictVariant (updateWindow s p)

def passageSelect (s : State) : State :=
  let s := dueAbort s
  if !s.psc.run || s.psc.stopIssue || s.psc.issuing.isSome || s.psc.suspended.isSome || s.img.swapTo.isSome then s
  else
    let s := refresh s
    match selectPassage s with
    | some p => beginPassage s p
    | none => s

/-! Variant swaps (R92, R181, R188). -/

/-- An array is pass-quiescent with every chunk promoted, those that a fault's stop keeps among them (R61, R181). -/
def quiescent (s : State) (a : Nat) : Bool :=
  !s.sump.chunks.any (fun c => c.id.array == a) && (getArray s a).saved.saved.isEmpty &&
    !s.psc.ops.any (fun o => match o.kind with | .load b => b == a | .burst b => b == a | _ => false)
def castChanges (s : State) (v a : Nat) : Bool :=
  slice (imgSection (liveImg s) 1 v) (16 * a) (16 * a + 16) != slice (varSection s 1) (16 * a) (16 * a + 16)
def regionTable (s : State) (v a : Nat) : List Byte := slice (imgSection (liveImg s) 5 v) (256 * a) (256 * a + 256)
def regionChanges (s : State) (v a g : Nat) : Bool :=
  regionOfVariant (liveImg s) v a g != regionOfVariant (liveImg s) s.img.variant a g
def partChanges (s : State) (v slab part : Nat) : Bool :=
  partOfVariant (liveImg s) v slab part != partOf s slab part
def swapClear (s : State) (v : Nat) : Bool :=
  let arrays := List.range s.silicon.cls.arrays
  arrays.all (fun a => !castChanges s v a || quiescent s a) &&
    s.staging.alloc.all (fun kv => isFrameSlot s kv.1 || !partChanges s v (kv.1 / 32768) (kv.1 / 1024 % 32)) &&
    (!s.isZ64 || arrays.all (fun a => regionTable s v a == regionTable s s.img.variant a ||
      (quiescent s a && (List.range 64).all (fun g => !regionChanges s v a g || (groupOf s (groupKey a g)).busy.isEmpty) &&
        !s.psc.ops.any (fun o => match o.kind with | .reload b g => b == a && regionChanges s v b g | _ => false))))
/-- A region whose range or anchor changes is fresh under the new variant. DESIGN CHOICE: a region that is the same in both variants of
the image keeps its whole state, an anchor that an ANCHOR slot wrote among it (R92, log 114). -/
def swapRegion (s : State) (v a g : Nat) : State :=
  if !regionChanges s v a g then s else
  let old := groupOf s (groupKey a g)
  let new := regionOfVariant (liveImg s) v a g
  let s := freshRows (freshRows s a old.rowBase old.rowCount) a new.1 new.2.1
  { s with sump := { s.sump with groups := s.sump.groups.filter (fun kv => kv.1 != groupKey a g) } }
/-- No pass is in force on an array any more. -/
def unloadArray (s : State) (a : Nat) : State :=
  let x := getArray s a
  setArray s a { x with loading := none, active := none, retained := none, feeder := [], last := none }
def swapVariant (s : State) (v : Nat) : State :=
  let arrays := List.range s.silicon.cls.arrays
  let changed := arrays.filter (castChanges s v)
  let s := if s.isZ64 then arrays.foldl (fun t a => (List.range 64).foldl (fun u g => swapRegion u v a g) t) s else s
  let s := changed.foldl unloadArray s
  let s := dropBuffers s
  predictVariant (takeBuffers { s with img := { s.img with variant := v, swapTo := none } })
def variantSwap (s : State) : State :=
  match s.img.swapTo with
  | some v => if s.psc.run && s.psc.accepted.isEmpty && swapClear s v && !variantUsesFailed s v then swapVariant s v else s
  | none => s

/-! Completion, speculation and undo (R200, R204 to R208). -/

/-- After a passage's end: its slots go, and the step's commit or boundary may follow. -/
def afterEnd (s : State) : State := tryBoundary (tryCommit (refresh (sweepSlots s)))

def hasOps (s : State) (p : Nat) : Bool :=
  s.psc.ops.any (fun o => o.passage == p) || s.psc.accepted.any (fun x => x.passage == p)
/-- A passage that ends gives back its ownership of groups and regions (R338). -/
def returnGroups (s : State) (p : Nat) : State := releaseOwners s (fun o => o.2 == p)
/-- A passage completes when its end bundle has issued and every operation it started has finished, bursts that a stop has cut included
(R193, R200). -/
def passageComplete (s : State) (p : Nat) : State :=
  let x := getPassage s p
  if x.status == .ended && !x.spec && !hasOps s p && (savedOps s p).isEmpty then
    afterEnd (returnGroups (setPassage s p { x with status := .completed }) p)
  else s

/-- Groups that a passage owns as shadows. -/
def shadowKeys (s : State) (p : Nat) : List Nat :=
  (s.sump.groups.filter (fun kv => kv.2.shadow && kv.2.owner == p)).map (·.1)
/-- A shadow becomes an ordinary group (R206). -/
def commitShadows (s : State) (p : Nat) : State :=
  (shadowKeys s p).foldl (fun t k => setGroup t k { groupOf t k with shadow := false }) s
/-- A shadow group is closed; a shadow region is made fresh and keeps its range and its anchor (R206, R207). -/
def undoShadow (s : State) (k : Nat) : State :=
  let g := groupOf s k
  let u := freshRows s (k / 64) g.rowBase g.rowCount
  if s.isZ64 then
    setGroup u k { Group.closed with isOpen := true, rowBase := g.rowBase, rowCount := g.rowCount, anchor := g.anchor }
  else { u with sump := { u.sump with groups := u.sump.groups.filter (fun kv => kv.1 != k) } }
def undoShadows (s : State) (p : Nat) : State := (shadowKeys s p).foldl undoShadow s

/-- Arrays that a passage drives: its pass is in force or loading, or the last burst was its own. -/
def drivenArrays (s : State) (p : Nat) : List Nat :=
  (List.range s.silicon.cls.arrays).filter (fun a =>
    let x := getArray s a
    [x.loading, x.active].any (fun q => match q with | some y => y.passage == p | none => false) ||
      (match x.last with | some b => b.passage == p | none => false))
/-- Those of them that an undo stops: where another passage's burst came last, no row of the undone one can enter, and that burst runs
through (R206, R207). -/
def undoArrays (s : State) (p : Nat) : List Nat :=
  (drivenArrays s p).filter (fun a => match (getArray s a).last with | some b => b.passage == p | none => true)

/-- The outcome reaches the passages that carry the cond (R206). -/
def resolvePassage (s : State) (cond : Nat) (outcome : Bool) (p : Nat) : State :=
  let x := getPassage s p
  if !(pentry s p).valid || (pentry s p).cond != cond then s
  else if x.status == .notStarted then dropFalse s p
  else if !x.spec then s
  else if outcome then settleReads (commitShadows (setPassage s p { x with spec := false }) p) p
  else stopArrays (setPassage s p { x with status := .undoing }) (undoArrays s p)
def resolveCond (s : State) (cond : Nat) (outcome : Bool) : State :=
  match condOf s cond with
  | some o => if o = outcome then s else raiseOpen s 2 Ev.resolveConflict
  | none =>
    let s := { s with psc := { s.psc with conds := s.psc.conds.put cond outcome } }
    if s.psc.stepOn then afterEnd ((passageList s).foldl (fun t p => resolvePassage t cond outcome p) s) else s
/-- A write of `PSC_RESOLVE`; cond 0 is reserved. -/
def pscResolve (s : State) (req : Req) (cond : Nat) (outcome : Bool) : State :=
  if cond = 0 then reservedWrite s req 0x040010 else resolveCond s cond outcome

/-- An array goes on after an undo: what its stop kept of the undone passage is gone; what a fault keeps stays. -/
def clearStop (p : Nat) (s : State) (a : Nat) : State :=
  let x := getArray s a
  let mine := fun (c : Chunk) => x.saved.ops.any (fun o => o.id == c.op && o.passage == p)
  let k : Susp := { x.saved with saved := x.saved.saved.filter (fun c => !mine c), ops := x.saved.ops.filter (fun o => o.passage != p),
                                 cut := match x.saved.cut with | some b => if b.passage = p then none else some b | none => none }
  let stays := arrayHeld s a || s.psc.stopIssue || !k.saved.isEmpty
  setArray s a { x with stopped := x.stopped && stays, saved := if stays then k else Susp.none }
def clearStops (s : State) (p : Nat) : State := (drivenArrays s p).foldl (clearStop p) s
def undoComplete (s : State) (p : Nat) : State :=
  let x := getPassage s p
  if x.status ≠ .undoing || hasOps s p then s else
  let s := raiseOpen (clearStops (undoShadows (returnGroups s p) p) p) 2 Ev.passageUndone
  let s := { s with psc := { s.psc with undos := s.psc.undos + 1,
                                        issuing := if s.psc.issuing = some p then none else s.psc.issuing } }
  afterEnd (setPassage s p { getPassage s p with status := .resolvedFalse, spec := false, nonfin := [] })

/-! Pre-emption (R335 to R337). -/

/-- The variant of `q` would change the row range or anchor of a region that `p` owns. -/
def preemptMoves (s : State) (p q : Nat) : Bool :=
  match resolveVariant s (pentry s q) with
  | some v => s.isZ64 && s.sump.groups.any (fun kv =>
      kv.2.owner == p && decide (0 < kv.2.promotions + kv.2.inflight) && regionChanges s v (kv.1 / 64) (kv.1 % 64))
  | none => false
def preempt (s : State) (q : Nat) : State :=
  let refuse := raise s 6 Ev.preemptRefused (pack [(12, q)])
  match s.psc.issuing with
  | none => refuse
  | some p =>
    if s.psc.suspended.isSome || s.psc.preempter.isSome || (getPassage s p).spec || (getPassage s p).status != .running ||
        !ready (refresh s) q || preemptMoves s p q then refuse
    else stopArrays { s with psc := { s.psc with preempter := some q } } (drivenArrays s p)

/-- A stopped array stands free for the pre-empting passage; what the suspended one resumes is put by. -/
def suspendArray (s : State) (a : Nat) : State :=
  let x := getArray s a
  if !x.stopped then s else
  setArray s a { x with stopped := arrayHeld s a, susp := x.saved, saved := Susp.none }

/-- The pre-empted passage is suspended, and `q` starts, once every operation started has finished. Slots of the last bundle that wait
for chunks which the stop keeps are put by (R94, R335). -/
def passageSuspend (s : State) : State :=
  match s.psc.issuing, s.psc.preempter with
  | some p, some q =>
    if s.psc.suspended.isSome || s.psc.ops.any (fun o => o.passage == p) || !(s.psc.accepted.isEmpty || headWaits s) then s else
    let s := setPassage s p { getPassage s p with status := .suspended, rest := s.psc.accepted }
    let s := (List.range s.silicon.cls.arrays).foldl suspendArray s
    let s := { s with psc := { s.psc with suspended := some p, issuing := none, accepted := [] },
                      ras := { s.ras with suspAt := (getPassage s p).bundle } }
    beginPassage (raise s 6 Ev.passageSuspended (pack [(12, p)])) q
  | _, _ => s

/-- Another LOAD has used an array since it was stopped (R337). -/
def usedSince (s : State) (a : Nat) (k : Susp) : Bool :=
  let uid := fun (p : Option Pass) => p.map (·.uid)
  uid (getArray s a).active != uid k.kept || uid (getArray s a).loading != uid k.next
/-- ACLK of the reload that a resume needs: those of a stationary load until its tile may become active (R56, R337). -/
def reloadTime (s : State) (a : Nat) (k : Susp) : Nat :=
  let c := castOf s a
  if usedSince s a k && (k.kept.isSome || k.next.isSome) then c.segs * c.L / c.p * c.r + 1 else 0
/-- ACLK of row entry of the rows that a resume issues again: of the cut burst, and of others with chunks to be taken again (R337). -/
def rowsTime (k : Susp) : Nat :=
  let rest := fun (c : Chunk) => match k.cut with | some b => c.op == b.op && decide (b.m ≤ c.id.row) | none => false
  sumNat (((k.saved.filter (fun c => !rest c)).map (fun c => (c.op, c.id.row, c.take))).eraseDups.map (·.2.2)) +
    (match k.cut with | some b => sumNat b.takes | none => 0)

/-- The array gets its tiles back where another LOAD has used it, and issues its kept chunk words again (R337). -/
def reissue (s : State) (a : Nat) (k : Susp) : State :=
  let s := setArray s a { getArray s a with last := match k.cut with
    | some b => some { b with at_ := s.clock.aclk + reloadTime s a k + (rowsTime k - sumNat b.takes) }
    | none => (getArray s a).last }
  let x := getArray s a
  let s := if usedSince s a k then
    setArray s a { x with active := k.kept, loading := k.next.map (fun p => { p with complete := true }), retained := none,
                          feeder := [] } else s
  let s := k.saved.foldl (fun t c =>
    let key := groupKey a c.target
    let g := groupOf t key
    setGroup t key { g with inflight := g.inflight + 1 }) s
  let ops := k.ops.filter (fun o => (findOp s o.id).isNone)
  { s with sump := { s.sump with chunks := k.saved.map (fun c => { c with stage := .latched }) ++ s.sump.chunks },
           psc := { s.psc with ops := s.psc.ops ++ ops } }

/-- A stopped array goes on (R337). -/
def resumeArray (s : State) (a : Nat) : State :=
  let x := getArray s a
  if !x.stopped then s else reissue (setArray s a { x with stopped := false, saved := Susp.none }) a x.saved
/-- An array of the suspended passage goes on. -/
def resumeSuspended (s : State) (a : Nat) : State :=
  let x := getArray s a
  if x.susp == Susp.none then s else reissue (setArray s a { x with susp := Susp.none }) a x.susp

/-- The pre-empting passage has completed: the suspended one goes on, under its own variant. Its next bundle waits for the reloads and the
rows issued again (R335, R337). -/
def passageResume (s : State) : State :=
  match s.psc.suspended, s.psc.preempter with
  | some p, some q =>
    if !passageDone s q || s.psc.issuing.isSome || s.img.swapTo.isSome then s
    else
      match resolveVariant s (pentry s p) with
      | none => s
      | some v =>
        if v ≠ s.img.variant then { s with img := { s.img with swapTo := some v, staged := some v } }
        else
          let as := (List.range s.silicon.cls.arrays).filter (fun a => (getArray s a).susp != Susp.none)
          let load := as.map (fun a => reloadTime s a (getArray s a).susp)
          let rows := as.map (fun a => reloadTime s a (getArray s a).susp + rowsTime (getArray s a).susp)
          let now := s.clock.aclk
          let s := as.foldl resumeSuspended s
          let s := { s with psc := { s.psc with accepted := (getPassage s p).rest } }
          let s := setPassage s p { getPassage s p with status := .running, rest := [], loadTill := now + load.foldl max 0,
                                                        rowTill := now + rows.foldl max 0 }
          raise { s with psc := { s.psc with suspended := none, preempter := none, issuing := some p },
                         ras := { s.ras with suspAt := 0 } } 6 Ev.passageResumed (pack [(12, p)])
  | _, _ => s

/-! Governor state through the register window (R156, R376). -/

def govStateWord (s : State) (l w : Nat) : Nat :=
  let x := getLayer s l
  let up := fun i => x.up.getD i 0
  let down := fun i => x.down.getD i 0
  let rung := if x.fresh && ruleEnabled s l then rungIndex s l (fieldAt (ruleBytes s l) 0 2) else x.rung
  if w = 0 then rung + (if x.lock then 256 else 0) + x.since * 2 ^ 16
  else if w = 1 then up 0 + up 1 * 2 ^ 8 + up 2 * 2 ^ 16
  else if w = 2 then down 0 + down 1 * 2 ^ 16 else down 2
def govStateReserved (w : Nat) (v : Nat) : Bool :=
  (w == 0 && fld v 15 9 != 0) || (w == 1 && fld v 31 24 != 0) || (w == 3 && fld v 31 16 != 0)
def govStateSet (x : Layer) (w v : Nat) : Layer :=
  if w = 0 then { x with fresh := false, rung := fld v 7 0, lock := bitAt v 8, since := fld v 31 16 }
  else if w = 1 then { x with up := [fld v 7 0, fld v 15 8, fld v 23 16] }
  else if w = 2 then { x with down := [fld v 15 0, fld v 31 16, x.down.getD 2 0] }
  else { x with down := [x.down.getD 0 0, x.down.getD 1 0, fld v 15 0] }
def govStateWrite (s : State) (req : Req) (w v : Nat) : State :=
  let s := if govStateReserved w v then reservedWrite s req (0x050044 + 4 * w) else s
  if s.psc.run then raiseOpen s 3 Ev.govStateBusy else
  let l := (liveReg s 0x050040).toNat % 1024
  setLayer s l (govStateSet (getLayer s l) w v)

/-! Meanings. -/

def execRunSet (req : Req) (s : State) : Result :=
  .next (portAccess s req (fun t => runSet t))
def execPscResolve (req : Req) (cond : BitVec 8) (outcome : Bool) (s : State) : Result :=
  .next (portAccess s req (fun t => pscResolve t req cond.toNat outcome))
def execPscPreempt (req : Req) (q : BitVec 12) (s : State) : Result :=
  .next (portAccess s req (fun t => preempt t q.toNat))
def execGovStateWrite (req : Req) (w : Fin 4) (v : Word) (s : State) : Result :=
  .next (portAccess s req (fun t => govStateWrite t req w.val v.toNat))
def execPassageSelect (s : State) : Result := .next (passageSelect s)
def execVariantSwap (s : State) : Result := .next (variantSwap s)
def execPassageComplete (p : BitVec 12) (s : State) : Result := .next (passageComplete s p.toNat)
def execPassageUndoComplete (p : BitVec 12) (s : State) : Result := .next (undoComplete s p.toNat)
def execPassageSuspend (s : State) : Result := .next (passageSuspend s)
def execPassageResume (s : State) : Result := .next (passageResume s)
def execStagingAllocate (slab : Fin 8) (part : BitVec 5) (s : State) : Result := .next (serveWait s slab.val part.toNat)

end Sys2Proof.Machine
end

