-- ==== Sys2Proof/Machine/Arrays.lean ====
section
/-! DEFINITION. Arrays and feeders: loads, feeder address generators, bursts, residue checks, replays, promotion (R52 to
R73, R80 to R96, R123, R141, R142, R150, R151, R165, R166, R188). -/

namespace Sys2Proof.Machine

def Slot.arraySlot (sl : Slot) (a op : Nat) : Bool := decide (sl.index < 64) && sl.array == a && sl.opcode == op
def arraySlab (a : Nat) : Nat := a / 8
/-- A payload that names an array within its slab, and more fields. -/
def arrayPayload (a : Nat) (more : List (Nat × Nat)) : BitVec 24 := pack ((3, a % 8) :: more)
/-- `array_disabled`, once per passage (R165). -/
def noteDisabled (s : State) (p a : Nat) : State :=
  notePassage s (slabSource (arraySlab a)) Ev.arrayDisabled p (arrayPayload a [])

/-! Elements of staging with their bounds (R187). -/

/-- A code of a partition's window, and whether it lies inside. -/
def readBound (s : State) (slab part nib fmt : Nat) : Nat × Bool :=
  if inWindow s slab part nib fmt then (readElem s slab part nib fmt, true) else (zeroCode fmt, false)

/-! Feeder descriptors (R62 to R65). -/

def fdU16 (d : List Byte) (o : Nat) : Nat := fieldAt d o 2
def fdS32 (d : List Byte) (o : Nat) : Int := signed 32 (fieldAt d o 4)
def fdConv (d : List Byte) : Bool := fieldAt d 0 1 % 4 == 1
def fdKorder (d : List Byte) : Bool := bitAt (fieldAt d 0 1) 2
def fdBase (d : List Byte) : Nat := fieldAt d 4 4 % 2 ^ 25
def fdMs (d : List Byte) : List Nat := (List.range 4).map (fun i => fdU16 d (8 + 2 * i))
def fdKs (d : List Byte) : List Nat := (List.range 3).map (fun i => fdU16 d (0x20 + 2 * i))
def product_ (l : List Nat) : Nat := l.foldl (· * ·) 1
/-- Mixed radix digits, first extent fastest. -/
def digits : List Nat → Nat → List Nat
  | [], _ => []
  | e :: es, x => x % e :: digits es (x / e)

/-- What the generator forms for one entry: no element, the pad code, or an element offset. -/
inductive FeedAddr where
  | zero
  | pad
  | off (o : Int)
  deriving DecidableEq, Repr

def feedAddr (d : List Byte) (m k : Nat) : FeedAddr :=
  if product_ (fdMs d) ≤ m ∨ product_ (fdKs d) ≤ k then .zero else
  let i := digits (fdMs d) m
  let j := digits (fdKs d) k
  let ix := fun (n : Nat) => (i.getD n 0 : Int)
  let sm := fun (n : Nat) => fdS32 d (0x10 + 4 * n)
  let sk := fun (n : Nat) => fdS32 d (0x28 + 4 * n)
  if !fdConv d then
    .off (((List.range 4).map (fun n => ix n * sm n)).foldl (· + ·) 0 +
          ((List.range 3).map (fun n => (j.getD n 0 : Int) * sk n)).foldl (· + ·) 0)
  else
    let b := fun (o : Nat) => (fieldAt d o 1 : Int)
    let c := if fdKorder d then j.getD 2 0 else j.getD 0 0
    let kx := if fdKorder d then j.getD 0 0 else j.getD 1 0
    let ky := if fdKorder d then j.getD 1 0 else j.getD 2 0
    let y := ix 1 * b 0x38 + (ky : Int) * b 0x3A - b 0x3C
    let x := ix 0 * b 0x39 + (kx : Int) * b 0x3B - b 0x3D
    if y < 0 ∨ (fdU16 d 0x34 : Int) ≤ y ∨ x < 0 ∨ (fdU16 d 0x36 : Int) ≤ x then .pad
    else .off (ix 2 * sm 2 + y * sm 1 + x * sm 0 + (c : Int) * sk 0)

/-- The code of one feeder entry, its nibble place where it reads staging, and whether its address left the
partition. DESIGN CHOICE: an offset sum that s48 cannot hold is taken as the integer it is, so its address has left the partition (R63,
log 112). DESIGN CHOICE: of a pad code wider than the streamed format, the low bits are streamed (R62, log 94). -/
def feedEntry (s : State) (slab part fmt : Nat) (d : List Byte) (m k : Nat) : Nat × Option Nat × Bool :=
  match feedAddr d m k with
  | .zero => (zeroCode fmt, none, false)
  | .pad => (fieldAt d 0x3E 2 % 2 ^ fmtBits fmt, none, false)
  | .off o =>
    let nib := 2 * (fdBase d : Int) + o * fmtNibs fmt
    if nib < 0 ∨ !inWindow s slab part nib.toNat fmt then (zeroCode fmt, none, true)
    else (readElem s slab part nib.toNat fmt, some nib.toNat, false)

/-! Passes (R56, R57, R96, R109, R151, R188). -/

/-- k origin of a pass. -/
def Pass.origin (q : Pass) (c : Cast) : Nat := q.kt * (c.segs * c.L)
def passCtx (s : State) (q : Pass) : Ctx := ctxOf s q.passage q.ctx
/-- The listed channels of an outlier pass; none for an ordinary one. -/
def passList (s : State) (q : Pass) : Option (List Nat) :=
  let c := passCtx s q
  if c.outlier = 0 then none else some (outlierList s (streamOf s c.stream2))
/-- A DW passage: its outlier pass walks listed features as rows (R151, log 24). -/
def isDw (s : State) (p : Nat) : Bool := (pentry s p).cls == 3

/-- Scale exponent of a place of a tensor that stands in a partition from a base, and whether its side table holds a reserved value or
field. A tensor named with pitch 0 has no stored rows, and so no tile: it is read without a scale. DESIGN CHOICE (R141, log 122). -/
def nibScale (s : State) (stream side slab part pitch base nib : Nat) : Int × Bool :=
  let st := streamOf s stream
  if !st.scaled || side = 0 || pitch = 0 then (0, false) else
  let o := nib - 2 * base
  sideScale s side (stKey slab part base) pitch st.fmt (o / (2 * pitch)) (o % (2 * pitch) / fmtNibs st.fmt)

/-- One element of a stationary tile. -/
structure TileElem where
  code   : Nat
  inside : Bool
  nonfin : Bool
  scale  : Int
  badTab : Bool
  deriving DecidableEq, Repr

/-- The BF16 code that a log8 element of a partner gives: R151 allows none and states no result, so it is a free value (R7, log 8). -/
def freePartner (s : State) (slab part nib : Nat) : Nat :=
  sumNat ((List.range 4).map (fun i =>
    16 ^ i * (Config.freeNibble s.freeCtr (4 * (2 * stKey slab part 0 + nib) + i) % 16)))
/-- An outlier pass's partner is a log8 tensor, which R151 does not allow. -/
def badPartner (s : State) (cx : Ctx) : Bool := cx.outlier != 0 && (streamOf s cx.stream).fmt == 6
/-- The stationary element (k, n), zero where the extents say so. -/
def tileElem (s : State) (slab : Nat) (cx : Ctx) (cast : Cast) (gathered : Option (List Nat)) (widen : Bool) (k n : Nat) :
    TileElem :=
  let kk := match gathered with | some l => l[k]? | none => some k
  match kk with
  | none => ⟨zeroCode cast.ft, true, false, 0, false⟩
  | some k =>
    if cx.kExt ≤ k ∨ cx.nExt ≤ n then ⟨zeroCode cast.ft, true, false, 0, false⟩ else
    let fmt := if widen then (streamOf s cx.stream).fmt else cast.ft
    let nib := elemAt cx.offset cx.pitch n k fmt
    let r := readBound s slab cx.part nib fmt
    let sc := if r.2 then nibScale s cx.stream cx.side slab cx.part cx.pitch cx.offset nib else (0, false)
    let nf := r.2 && nonFinite fmt r.1
    if widen && fmt == 6 then ⟨freePartner s slab cx.part nib, r.2, nf, 0, sc.2⟩
    else if widen then ⟨(convert cast.ft (Dy.scale (decode fmt r.1) (-sc.1)) none).code, r.2, nf, 0, sc.2⟩
    else ⟨r.1, r.2, nf, sc.1, sc.2⟩

/-- The tile of a pass, column by column. -/
def tileOfPass (s : State) (a p : Nat) (cx : Ctx) (cast : Cast) (kt nt : Nat) : List (List TileElem) :=
  let list := outlierList s (streamOf s cx.stream2)
  let widen := cx.outlier != 0
  let gathered := if widen && !isDw s p then some list else none
  (List.range cast.cols).map (fun j => (List.range (cast.segs * cast.L)).map (fun i =>
    tileElem s (arraySlab a) cx cast gathered widen (kt * (cast.segs * cast.L) + i) (nt * cast.cols + j)))

/-- Scale of each segment of a column: that of the tile holding its elements (R142). -/
def segScales (cast : Cast) (es : List TileElem) : List Int :=
  (List.range cast.segs).map (fun g =>
    (((slice es (g * cast.L) (g * cast.L + cast.L)).map (·.scale)).find? (· != 0)).getD 0)

/-- Chunks of a pass that its residue checks have not passed. DESIGN CHOICE: a wide chunk, which has no residue result, counts
until it has left by promotion, so the tile of a wide pass is released then (R56, R73, log 95). -/
def unchecked (s : State) (uid : Nat) : Bool :=
  s.sump.chunks.any (fun c => c.pass == uid && (c.wide || c.stage != .passed))
/-- What becomes of the active tile when it leaves the active register: it is retained while chunks of it are unchecked
(R57). -/
def retireActive (s : State) (x : ArrayState) : Option Pass :=
  match x.active with
  | some o => if x.retained.isNone && unchecked s o.uid then some o else x.retained
  | none => x.retained
/-- No pass is in force on an array; the tile it was loading, complete or not, is given up (R188). -/
def endPass (s : State) (a : Nat) : State :=
  let x := getArray s a
  let s := match x.loading with
    | some q => finishOp s q.op
    | none => s
  setArray s a { x with loading := none, active := none, retained := retireActive s x, feeder := [],
                        saved := { x.saved with kept := none, next := none } }

/-- The list of an outlier context is empty: every slot of its pass is a no-op (R151). -/
def emptyOutlier (s : State) (cx : Ctx) : Bool := cx.outlier != 0 && (outlierList s (streamOf s cx.stream2)).isEmpty

/-- The parameters of a pass that a LOAD slot word gives, with no tile: so stands an outlier pass with an empty list, whose
bursts do nothing (R151, R188). -/
def Slot.passHead (sl : Slot) (s : State) : Pass :=
  { uid := s.sump.nextUid, op := sl.op, passage := sl.passage, ctx := sl.bits 42 35, fdesc := sl.bits 34 27,
    target := sl.bits 26 21, ow := s.isZ64 && sl.bits 20 20 == 1, kt := sl.bits 19 10, nt := sl.bits 9 0, cols := [],
    scale := [], complete := true }
def doLoad (s : State) (sl : Slot) : State :=
  let a := sl.array
  let cast := castOf s a
  let cx := ctxOf s sl.passage (sl.bits 42 35)
  if !cast.enabled then noteDisabled s sl.passage a
  else if !cx.good 1 then noteContext (endPass s a) sl.passage
  else if emptyOutlier s cx then
    let s := endPass (noteStream (noteStream s cx.stream) cx.stream2) a
    let x := getArray s a
    let q := sl.passHead s
    setArray { s with sump := { s.sump with nextUid := s.sump.nextUid + 1 } } a
      { x with active := some q, saved := if x.stopped then { x.saved with kept := some q } else x.saved }
  else
    let tile := tileOfPass s a sl.passage cx cast (sl.bits 19 10) (sl.bits 9 0)
    let all := tile.flatten
    let s := noteMask s cx.mask
    let s := noteStream (noteStream s cx.stream) cx.stream2
    let s := if all.any (fun e => !e.inside) then noteStaging s (arraySlab a) a sl.passage else s
    let s := if badPartner s cx then bumpFree s else s
    let s := if all.any (·.badTab) then reservedRead s (slabSource (arraySlab a)) cx.side else s
    let s := tallyRead s sl.passage cx.stream (all.filter (·.nonfin)).length
    let q : Pass := { sl.passHead s with cols := tile.map (fun c => c.map (·.code)), scale := tile.map (segScales cast),
                                         complete := false }
    let s := { s with sump := { s.sump with nextUid := s.sump.nextUid + 1 } }
    let x := getArray s a
    let s := setArray s a { x with loading := some q, feeder := [],
                                   saved := if x.stopped then { x.saved with next := some q } else x.saved }
    addOp s { id := sl.op, passage := sl.passage, slot := sl.index, kind := .load a, writes := [] }

/-- Why a LOAD cannot be accepted (R56, R194). -/
def loadFree (s : State) (a : Nat) : Bool :=
  let x := getArray s a
  x.loading.isNone && x.retained.isNone && !x.stopped

def loadComplete (s : State) (a : Nat) : State :=
  match (getArray s a).loading with
  | some q =>
    if q.complete then s
    else finishOp (setArray s a { getArray s a with loading := some { q with complete := true } }) q.op
  | none => s

/-! Feeder fills (R58, R62 to R65). -/

/-- The pass the next burst belongs to. -/
def nextPass (x : ArrayState) : Option Pass := if x.loading.isSome then x.loading else x.active

/-- The rows that a stream's side tensor holds in a slab, in rising place (R150, log 57). -/
def sideRows (s : State) (stream slab : Nat) : List Nat :=
  ((s.gov.outlier.map (fun kv => kv.1 / 64)).filter
    (fun x => x / 2 ^ 48 == stream && decide (x % 2 ^ 48 < 2 ^ 40) && x % 2 ^ 48 / 2 ^ 31 == slab)).eraseDups
/-- Element `pos` of row `row` of a stream's side tensor, where the engine holds it: a finished-tile row by its global index, a row beside
staging by its order there (R150, log 57). -/
def sideEntry (s : State) (stream slab row pos : Nat) : Option Nat :=
  match List.lookup ((stream * 2 ^ 48 + (2 ^ 40 + row)) * 64 + pos) s.gov.outlier with
  | some c => some c
  | none => (sideRows s stream slab)[row]?.bind (fun x => List.lookup (x * 64 + pos) s.gov.outlier)
/-- One streamed entry of a pass. An outlier pass streams the side tensor of its list's stream: row m at list position k, or for a DW
product row k of listed feature m, the rest zero (R151). DEDUCED: its descriptor says which entries it forms, and an element that the
engine does not hold is read from staging (log 57). -/
def passEntry (s : State) (a : Nat) (q : Pass) (m k : Nat) : Nat × Option Nat × Bool :=
  let cast := castOf s a
  let cx := passCtx s q
  let d := feederDesc s q.fdesc
  let e := feedEntry s (arraySlab a) cx.part cast.fs d m k
  match passList s q, feedAddr d m k with
  | some l, .off _ =>
    let at_ := if isDw s q.passage then (k, m) else (m, k)
    if l.length ≤ at_.2 then (zeroCode cast.fs, none, false) else
    match if cast.fs = 7 then sideEntry s cx.stream2 (arraySlab a) at_.1 at_.2 else none with
    | some c => (c, none, false)
    | none => e
  | _, _ => e

/-- A streamed row as the generator forms it, its non-finite codes, and whether a side table holds a reserved exponent. A
segment whose elements lie in tiles of different scales has an unspecified one (R7, R142, log 8); a side tensor has none (R150). -/
def feedRow (s : State) (a : Nat) (q : Pass) (m : Nat) : FeedRow × Nat × Bool :=
  let cast := castOf s a
  let cx := passCtx s q
  let d := feederDesc s q.fdesc
  let es := (List.range (cast.segs * cast.L)).map (fun i => passEntry s a q m (q.origin cast + i))
  let scales := (List.range cast.segs).map (fun g =>
    if (passList s q).isSome then (0, false) else
    match ((slice es (g * cast.L) (g * cast.L + cast.L)).filterMap (·.2.1)).map
        (nibScale s cx.stream2 cx.side2 (arraySlab a) cx.part cx.spitch (fdBase d)) with
    | sc :: rest => if rest.all (fun x => x.1 == sc.1) then sc else (Config.freeScale s.freeCtr (a * 2 ^ 40 + m * 64 + g), false)
    | [] => if (streamOf s cx.stream2).scaled && cx.side2 != 0 then sideHead s cx.side2
              else (0, false))
  let bad := (List.range es.length).find? (fun i => (es.getD i (0, none, false)).2.2)
  ({ m := m, codes := es.map (·.1), scale := scales.map (·.1), bad := bad.map (fun i => i / cast.p) },
   (es.filter (fun e => nonFinite cast.fs e.1)).length, scales.any (·.2))

/-- A row of the next burst enters the queues. The burst takes the rows as they stand at its issue, after every write
it is ordered behind (R195, log 17). -/
def feederFill (s : State) (a m : Nat) : State :=
  let x := getArray s a
  match nextPass x with
  | none => s
  | some q =>
    if !(castOf s a).enabled || feederCount s ≤ q.fdesc || 64 ≤ x.feeder.length || x.feeder.any (fun r => r.m == m) then s
    else
      setArray s a { x with feeder := x.feeder ++ [(feedRow s a q m).1] }

/-! Bursts (R57 to R59, R88, R94, R123, R188). -/

/-- The row offset of a streamed row from the first row of its target: an outlier pass of a DW product goes to the
listed feature (R151). -/
def rowOffset (s : State) (q : Pass) (r m i : Nat) : Option Int :=
  match passList s q with
  | some l => if isDw s q.passage then (l[m + i]?).map (fun o => (r : Int) + o - m) else some (r + i : Nat)
  | none => some (r + i : Nat)
/-- The streamed row's row of W, for its mask (R121, R188). -/
def maskRow (s : State) (q : Pass) (m : Nat) : Nat :=
  match passList s q with
  | some l => if isDw s q.passage then l.getD m m else m
  | none => m

/-- ACLK of row entry that a streamed row takes: one, or in nibble-serial mode what the first row group takes (R67). DESIGN CHOICE: the
depth of the sum buffers between row groups is not given, and the first group never waits for a full one (R68, log 113). -/
def rowTake (cast : Cast) (row : FeedRow) : Nat :=
  if cast.serial then ((row.codes.take 16).map (nibblesSet cast.fs)).foldl max 1 else 1
/-- ACLK for which a burst's static slot occupies row entry (R69). -/
def entrySlot (cast : Cast) (rows : Nat) : Nat := if cast.serial then rows * fmtNibbles cast.fs else rows

/-- The chunk word of one segment (R70, R80, R81, R142). -/
def makeChunk (a op : Nat) (q : Pass) (cast : Cast) (row : FeedRow) (place : Int) (j g : Nat) : Chunk :=
  let lo := g * cast.L
  let as := slice row.codes lo (lo + cast.L)
  let bs := slice (q.cols.getD j []) lo (lo + cast.L)
  let lsb := chunkLsb cast.fs cast.ft
  let ps := products cast.fs cast.ft as bs
  { id := { array := a, row := row.m, col := j, seg := g }, op := op, pass := q.uid, target := q.target, row := place,
    ow := q.ow, wide := cast.wide, lsb := lsb, scale := row.scale.getD g 0 + (q.scale.getD j []).getD g 0,
    word := if cast.wide then wideWord (wideSum ps) else BitVec.ofInt 96 (narrowSum lsb ps),
    resid := if cast.wide then 0 else residue lsb (List.zipWith (residueLane cast.fs cast.ft) as bs),
    korigin := q.origin cast, fails := 0, take := rowTake cast row, live := true, stage := .latched }

/-- An element of W that a dW pass computes: it lies in the matrix and neither its row nor its block is masked. Every other
pass runs in full (R111, R119, R123). -/
def dwRow (s : State) (q : Pass) (mask m : Nat) : Bool :=
  !isDw s q.passage || (decide (m < product_ (fdMs (feederDesc s q.fdesc))) && !rowMasked s mask (maskRow s q m))
def dwCol (s : State) (q : Pass) (mask m n : Nat) : Bool :=
  !isDw s q.passage || (decide (n < (passCtx s q).nExt) && !blockMasked s mask (maskRow s q m / 256) (n / 256))
/-- The chunks of one streamed row: none at masked columns or for a masked row. -/
def rowChunks (s : State) (a op : Nat) (q : Pass) (cast : Cast) (mask r m i : Nat) (row : FeedRow) : List Chunk :=
  match rowOffset s q r m i with
  | none => []
  | some place =>
    if !dwRow s q mask (m + i) then [] else
    ((List.range cast.cols).filter (fun j => dwCol s q mask (m + i) (q.nt * cast.cols + j))).flatMap
      (fun j => (List.range cast.segs).map (fun g => makeChunk a op q cast row place j g))

/-- The next tile becomes active (R57); on a stopped array it is the one that a resume finds in force (R337). -/
def swapTile (s : State) (a : Nat) : State :=
  let x := getArray s a
  match x.loading with
  | some q => setArray s a { x with loading := none, active := some q, retained := retireActive s x,
                                    saved := if x.stopped then { x.saved with kept := some q, next := none } else x.saved }
  | none => s
/-- The retained tile is released after the last residue result of its pass (R56). -/
def releaseRetained (s : State) (a : Nat) : State :=
  let x := getArray s a
  match x.retained with
  | some q => if unchecked s q.uid then s else setArray s a { x with retained := none }
  | none => s

/-- A dW pass tells the extents of the matrix whose block its target holds, all of its rows masked or not; an outlier pass, which
streams listed rows, tells the columns alone. A pass of another product leaves its target with none (R111, R151). -/
def aimExtents (s : State) (a : Nat) (q : Pass) : State :=
  let k := groupKey a q.target
  let g := groupOf s k
  if !g.isOpen then s
  else if isDw s q.passage then
    setGroup s k { g with wrows := if (passList s q).isSome then g.wrows else product_ (fdMs (feederDesc s q.fdesc)),
                          wcols := (passCtx s q).nExt }
  else if g.wrows = 0 ∧ g.wcols = 0 then s
  else setGroup s k { g with wrows := 0, wcols := 0 }
/-- A burst of passage `p` raises its target's in-flight count and owns the target (R89, R94, R204). -/
def aimBurst (s : State) (a p : Nat) (q : Pass) (chunks : Nat) : State :=
  let k := groupKey a q.target
  let g := groupOf s k
  let s := if g.isOpen then takeOwner s k p else s
  setGroup s k { groupOf s k with
    inflight := g.inflight + chunks, shadow := g.shadow || (s.isZ64 && (getPassage s p).spec) }
/-- The first chunk of a pass that promotes into a group or region adds the pass's segments to its count (R90). -/
def countPass (s : State) (k pass segs : Nat) : State :=
  let g := groupOf s k
  if g.counted.contains pass then s else
  let n := g.promotions + segs
  let s := if g.promotions ≤ 2 ^ 23 ∧ 2 ^ 23 < n then
      raiseOpen s (slabSource (arraySlab (k / 64))) Ev.promotionLimit else s
  setGroup s k { g with promotions := min n (2 ^ 24 - 1), counted := pass :: g.counted }

/-- A burst that issued before its array was told to stop, and acts after: the rows that entered up to the request run through, the rest
are cut (R61). -/
def cutLate (s : State) (a : Nat) : State :=
  let x := getArray s a
  match x.last with
  | some b => if x.stopped then cutBurst s a b (b.begun x.stopAt) else s
  | none => s

/-- `feeder_bound` for the first row whose address left its partition (R65). -/
def noteFeeder (s : State) (a m : Nat) (rows : List FeedRow) : State :=
  match rows.find? (fun r => r.bad.isSome) with
  | some r => raise s (slabSource (arraySlab a)) Ev.feederBound
      (BitVec.ofNat 24 (a % 8 * 2 ^ 21 + r.bad.getD 0 % 256 * 2 ^ 13 + (r.m - m) % 64 * 2 ^ 7))
  | none => s

/-- A burst takes its rows' codes and issues. DESIGN CHOICE: rows that are masked, and bursts of masked rows alone, count the
non-finite codes and the addresses out of bounds of what they would have streamed (R123, log 117). -/
def issueBurst (s : State) (sl : Slot) (q : Pass) : State :=
  let a := sl.array
  let cast := castOf s a
  let cx := passCtx s q
  let m := sl.bits 27 0
  let n := sl.bits 42 37 + 1
  let x := getArray s a
  let fed := (List.range n).map (fun i => feedRow s a q (m + i))
  let rows := fed.map (·.1)
  let s := tallyRead s sl.passage cx.stream2 (sumNat (fed.map (·.2.1)))
  let s := if fed.any (·.2.2) then reservedRead s (slabSource (arraySlab a)) cx.side2 else s
  let s := noteMask (noteFeeder s a m rows) cx.mask
  let live := (groupOf s (groupKey a q.target)).isOpen
  let chunks := (rows.flatMap (fun row => rowChunks s a sl.op q cast cx.mask (sl.bits 36 28) m (row.m - m) row)).map
    (fun c => { c with live := live })
  let s := setArray s a { getArray s a with
    feeder := x.feeder.filter (fun r => !(decide (m ≤ r.m) && decide (r.m < m + n))) }
  let s := aimExtents s a q
  if chunks.isEmpty then s else
  let s := setArray s a { getArray s a with
    last := some { op := sl.op, passage := sl.passage, at_ := s.psc.lastIssue, m := m, rows := n, takes := rows.map (rowTake cast),
                   full := rows.map (fun r => chunks.any (fun c => c.id.row == r.m)), slot := entrySlot cast n, done := 0 } }
  let s := aimBurst s a sl.passage q chunks.length
  let s := { s with sump := { s.sump with chunks := s.sump.chunks ++ chunks } }
  cutLate (addOp s { id := sl.op, passage := sl.passage, slot := sl.index, kind := .burst a, writes := [] }) a

/-- A BURST. DESIGN CHOICE: the first burst of a new pass makes its tile active also where every row of it is masked and none enters, so
its loading register is free for the next LOAD (R57, R123, log 111). -/
def doBurst (s : State) (sl : Slot) : State :=
  let a := sl.array
  if !(castOf s a).enabled then noteDisabled s sl.passage a else
  match nextPass (getArray s a) with
  | none => noteContext s sl.passage
  | some q =>
    if feederCount s ≤ q.fdesc then
      raiseOpenPassage s (slabSource (arraySlab a)) Ev.feederInvalid sl.passage
    else if passList s q == some [] then s
    else
      let t := swapTile s a
      match (getArray t a).active with
      | some q => issueBurst t sl q
      | none => t

/-! Residue check and replay (R70 to R72). -/

def Chunk.value (c : Chunk) : Dy := Dy.scale (chunkValue c.wide c.lsb c.word) (-c.scale)
/-- A chunk leaves the array's registers: it no longer counts as in flight. -/
def dropChunk (s : State) (c : Chunk) : State :=
  let r := match takeFirst (fun (d : Chunk) => d == c) s.sump.chunks with
    | some r => r.2
    | none => s.sump.chunks
  releaseRetained (finishBurst (dropInflight { s with sump := { s.sump with chunks := r } } [c]) c.op) c.id.array
def setChunk (s : State) (c d : Chunk) : State :=
  { s with sump := { s.sump with chunks := mapFirst (fun x => x == c) (fun _ => d) s.sump.chunks } }
/-- A chunk that fails after a stop waits for the resume (R72, R336, R337). -/
def saveChunk (s : State) (c : Chunk) : State :=
  let x := getArray s c.id.array
  let op := s.psc.ops.filter (fun o => o.id == c.op && !x.saved.ops.any (fun p => p.id == o.id))
  dropChunk (setArray s c.id.array { x with saved := { x.saved with
    saved := x.saved.saved ++ [c], ops := x.saved.ops ++ op } }) c

def residueFail (s : State) (c : Chunk) : State :=
  let a := c.id.array
  let s := raise s (slabSource (arraySlab a)) Ev.residueMismatch
    (BitVec.ofNat 24 (a % 8 * 2 ^ 21 + c.id.col % 512 * 2 ^ 12 + c.id.seg % 32 * 2 ^ 7))
  let stopped := (getArray s a).stopped
  let d := { c with fails := c.fails + 1, stage := .failed }
  let s := columnFaults (setChunk s c d) a c.id.col (castOf s a).c
  if 4 ≤ d.fails then uncorrectable (dropChunk s d) 9 (arraySlab a) (Config.errorWord 9 (c.row.toNat * 256 + c.id.col))
  else if stopped then saveChunk s d
  else s

def residueCheck (s : State) (id : ChunkId) (err : Int) : State :=
  match s.sump.chunks.find? (fun c => c.id == id && !c.wide && (c.stage == .latched || c.stage == .replayed)) with
  | none => s
  | some c =>
    let w := BitVec.ofInt 96 (c.word.toInt + err)
    if (w.toInt % 31).toNat = c.resid then releaseRetained (setChunk s c { c with word := w, stage := .passed }) id.array
    else residueFail s c

/-- Rows of a burst that has issued still enter the array (R58, R71). -/
def rowsEntering (s : State) (a : Nat) : Bool :=
  match (getArray s a).last with
  | some b => decide (s.clock.aclk < b.at_ + sumNat b.takes)
  | none => false
/-- A burst that has issued has chunks to latch: the last of its rows latches (S·h − 1) + (C − 1) + 1 ACLK after it has entered (R69). -/
def burstLatching (s : State) (a : Nat) : Bool :=
  let c := castOf s a
  match (getArray s a).last with
  | some b => decide (s.clock.aclk < b.at_ + sumNat b.takes + (c.segs * c.h - 1) + (c.cols - 1) + 1)
  | none => false
/-- The failed chunks of the first failed row are computed again, once no row of an issued burst enters. The row takes row entry
for its ACLK, which pass under `residue_replay` (R71, log 96). -/
def rowReplay (s : State) (a : Nat) : State :=
  match s.sump.chunks.find? (fun c => c.id.array == a && c.stage == .failed) with
  | none => s
  | some f =>
    let mine := fun (c : Chunk) => c.id.array == a && c.stage == .failed && c.op == f.op && c.id.row == f.id.row
    if (getArray s a).stopped then (s.sump.chunks.filter mine).foldl saveChunk s
    else if rowsEntering s a then s
    else
      let s := { s with sump := { s.sump with chunks := s.sump.chunks.map (fun c =>
        if mine c then { c with stage := .replayed } else c) } }
      heldAclk s 4 f.take

/-! Promotion (R84 to R94). -/

/-- The key of the element a chunk goes to. -/
def chunkTotal (s : State) (c : Chunk) : Nat :=
  totKey c.id.array ((groupOf s (groupKey c.id.array c.target)).rowBase + c.row.toNat) c.id.col
/-- An earlier chunk of the same element must go first where an overwrite is at stake (R92, R94). -/
def mustWait (s : State) (c : Chunk) : Bool :=
  (s.sump.chunks ++ (getArray s c.id.array).saved.saved).any (fun e =>
    e.id.array == c.id.array && e.target == c.target && e.row == c.row && e.id.col == c.id.col && (e.ow || c.ow) &&
      (decide (e.op < c.op) || (e.op == c.op && decide (e.id.seg < c.id.seg))))

/-- Add counts of saturation and floor loss to a group, its array's totals and the lifetime record (R86). -/
def countLoss (s : State) (k sat floor : Nat) : State :=
  let x := groupOf s k
  let phys := physOf s (k / 64)
  let s := setGroup s k { x with saturated := satNat u32max x.saturated sat, floorLoss := satNat u32max x.floorLoss floor }
  let s := { s with sump := { s.sump with floorTot := s.sump.floorTot.upd 0 phys (fun c => satAdd c floor),
                                          satTot := s.sump.satTot.upd 0 phys (fun c => satAdd c sat) } }
  countLife (countLife s 10 floor) 11 sat
/-- `sump_saturate` of a group or region at a k origin. -/
def raiseSaturate (s : State) (k origin : Nat) : State :=
  raise s (slabSource (arraySlab (k / 64))) Ev.sumpSaturate (arrayPayload (k / 64) [(6, k % 64), (15, origin)])
/-- Count what a promotion lost, and raise `sump_saturate` for the first saturation of its pass (R86). -/
def countPromoted (s : State) (a g : Nat) (pass origin : Nat) (r : Promoted) : State :=
  let k := groupKey a g
  let s := if r.saturated && !s.sump.satPass.contains pass then
      raiseSaturate { s with sump := { s.sump with satPass := pass :: s.sump.satPass } } k origin else s
  countLoss s k (if r.saturated then 1 else 0) (if r.floorLoss then 1 else 0)

/-- Write an element: its sum, or an unspecified total past the promotion limit (R90). -/
def putTotal (s : State) (k grp : Nat) (v : Int) : State :=
  if 2 ^ 23 < (groupOf s grp).promotions then bumpFree (setTotal s k (Config.freeTotal s.freeCtr)) else setTotal s k v

/-- A cut pass targets the group or region: its progress stays at that pass's k origin until the array goes on, whatever promotes
(R336). -/
def cutTarget (s : State) (a target : Nat) : Bool :=
  let x := getArray s a
  x.stopped && x.cutFlag && (match x.saved.kept with | some q => q.target == target | none => false)
def promoteChunk (s : State) (c : Chunk) : State :=
  let a := c.id.array
  let k := groupKey a c.target
  let g := groupOf s k
  if !g.isOpen || !c.live then
    dropChunk (raiseOpenPassage s (slabSource (arraySlab a)) Ev.groupClosed (2 ^ 20 + c.op)) c
  else if c.row < 0 ∨ (g.rowCount : Int) ≤ c.row then
    let s := if s.sump.boundPass.contains c.pass then s
      else raiseOpen { s with sump := { s.sump with boundPass := c.pass :: s.sump.boundPass } } (slabSource (arraySlab a)) Ev.sumpBound
    dropChunk s c
  else
    let r := promote c.value g.anchor
    let key := chunkTotal s c
    let old := if c.ow && c.id.seg == 0 then 0 else getTotal s key
    let cast := castOf s a
    let s := countPromoted (countPass s k c.pass cast.segs) a c.target c.pass c.korigin r
    let s := putTotal s key k (old + r.n)
    let s := if cutTarget s a c.target then s else setGroup s k { groupOf s k with progress := c.korigin / cast.L + cast.segs }
    dropChunk s c

def chunkPromote (s : State) (id : ChunkId) : State :=
  match s.sump.chunks.find? (fun c => c.id == id && (if c.wide then c.stage == .latched else c.stage == .passed)) with
  | none => s
  | some c => if mustWait s c then s else promoteChunk s c

/-! Why a BURST cannot be accepted (R194): its stall cause. -/

/-- Why a slot on a group or region waits for an unfinished operation on it, or for its chunks (R94, R95). -/
def busyHold (s : State) (k : Nat) : Option Nat :=
  match (groupOf s k).busy with
  | [] => none
  | ids =>
    if ids.any (fun id => match findOp s id with
      | some o => (match o.kind with | .drain _ _ _ _ _ _ _ _ true => true | _ => false)
      | none => false) then some 7 else some 6
/-- A passage other than the owner names a shadow (R204). -/
def shadowHold (s : State) (k p : Nat) : Bool :=
  let g := groupOf s k
  g.shadow && g.owner != p

/-- An array has a physical row or column that carries no logical index and is not retired. -/
def hasSpare (s : State) (p : Nat) : Bool := sparesLeft s p false != 0 || sparesLeft s p true != 0
/-- A forced self-test of spares holds the LOADs of a physical array: until the array is between passes and the test has begun, and
for its 512 ACLK (R341, log 110). -/
def testHolds (s : State) (p : Nat) : Bool :=
  decide (s.clock.aclk < Tab.get 0 s.ras.bgLoads p) ||
    (s.ras.forced.contains (2, p) && Tab.get 0 s.ras.bgLoads p == 0 && hasSpare s p)

/-- Why a LOAD cannot be accepted: a forced self-test of its array's spares, its loading register, or another passage's shadow as its
target (R56, R194, R204, R341). -/
def loadHold (s : State) (sl : Slot) : Option Nat :=
  let cx := ctxOf s sl.passage (sl.bits 42 35)
  if !(castOf s sl.array).enabled || !cx.good 1 || emptyOutlier s cx then none
  else if testHolds s (physOf s sl.array) then some 15
  else if !loadFree s sl.array then some 2
  else if shadowHold s (groupKey sl.array (sl.bits 26 21)) sl.passage then some 13
  else none

/-- A speculative passage `p` may burst into the target of a pass (R204). -/
def specTarget (s : State) (a p : Nat) (q : Pass) : Bool :=
  let k := groupKey a q.target
  let g := groupOf s k
  if s.isZ64 then (g.shadow && g.owner == p) ||
    (!g.shadow && g.promotions == 0 && g.inflight == 0 && !s.sump.totals.any (fun kv =>
      decide (totKey a g.rowBase 0 ≤ kv.1) && decide (kv.1 < totKey a (g.rowBase + g.rowCount) 0)))
  else g.isOpen && g.shadow && g.owner == p

def burstHold (s : State) (sl : Slot) : Option Nat :=
  let a := sl.array
  let x := getArray s a
  if !(castOf s a).enabled then none else
  match nextPass x with
  | none => none
  | some q =>
    if feederCount s ≤ q.fdesc || passList s q == some [] then none else
    let k := groupKey a q.target
    let m := sl.bits 27 0
    let entry := match x.last with | some b => decide (s.clock.aclk < b.at_ + b.slot) | none => false
    if x.stopped || arrayHeld s a || !q.complete then some 2
    else if s.sump.chunks.any (fun c => c.id.array == a && c.stage == .failed) then some 4
    else if entry || (List.range (sl.bits 42 37 + 1)).any (fun i => !x.feeder.any (fun r => r.m == m + i)) then some 3
    else if (busyHold s k).isSome then busyHold s k
    else if shadowHold s k sl.passage || ((getPassage s sl.passage).spec && !specTarget s a sl.passage q) then some 13
    else none

/-! Meanings. -/

def execLoad (a : Fin 64) (s : State) : Result :=
  match takeSlot s (fun sl => sl.arraySlot a.val 1) with
  | some (sl, t) => .next (doLoad t sl)
  | none => .next s
/-- A feeder entry or a stationary word that its check bits show to be corrupt: `corrupt` has the address of the word (R333).
`s` is the state before the burst; one that streams nothing reads none. -/
def noteCorrupt (s t : State) (a : Nat) (corrupt : Option (BitVec 17)) : State :=
  match corrupt with
  | some w => if (getArray t a).last = (getArray s a).last then t else uncorrectable t 4 (arraySlab a) w.toNat
  | none => t

def execBurst (a : Fin 64) (corrupt : Option (BitVec 17)) (s : State) : Result :=
  match takeSlot s (fun sl => sl.arraySlot a.val 2) with
  | some (sl, t) => .next (noteCorrupt t (doBurst t sl) a.val corrupt)
  | none => .next s
def execStationaryLoadComplete (a : Fin 64) (s : State) : Result := .next (loadComplete s a.val)
def execFeederFill (a : Fin 64) (m : BitVec 28) (s : State) : Result := .next (feederFill s a.val m.toNat)
def execResidueCheck (c : ChunkId) (err : Int) (s : State) : Result := .next (residueCheck s c err)
def execRowReplay (a : Fin 64) (s : State) : Result := .next (rowReplay s a.val)
def execChunkPromote (c : ChunkId) (s : State) : Result := .next (chunkPromote s c)

end Sys2Proof.Machine
end

