-- ==== Sys2Proof/Machine/Attention.lean ====
section
/-! DEFINITION. The interrupt controller, the event log, and the result mailboxes as software uses them (R299 to R312). -/

namespace Sys2Proof.Machine

/-! Interrupts (R299 to R304). -/

/-- A reserved source never becomes pending (R299). -/
def intReserved (n : Nat) : Bool := decide (28 ≤ n ∧ n < 32) || decide (54 ≤ n ∧ n < 64)
def intConfig (s : State) (n : Nat) : Nat := (liveReg s (0x240000 + 4 * n)).toNat
def intPrio (s : State) (n : Nat) : Nat := fld (intConfig s n) 7 0
def intActive (s : State) (n : Nat) : Bool := s.intc.act.getLsbD n
/-- Pend as it shows: with level sensing it follows the signal while the source is not active (R301). -/
def intPending (s : State) (n : Nat) : Bool :=
  !intReserved n && (if intSense s n = 0 then (levelNow s ||| s.intc.pulse).getLsbD n && !intActive s n else s.intc.pend.getLsbD n)

/-- Delivery enabled, and to which targets, as the arbiter sees it: a mask lifted by the last write may still stand (R304,
log 20). -/
def intEnabled (s : State) (n : Nat) : Bool :=
  bitAt (intConfig s n) 18 || (match List.lookup n s.intc.grace with | some g => bitAt g.1.toNat 18 | none => false)
def intTargets (s : State) (n : Nat) : Nat :=
  fld (intConfig s n) 15 8 ||| (match List.lookup n s.intc.grace with | some g => fld g.1.toNat 15 8 | none => 0)

/-- The largest priority among the sources active on a target; none where it is idle. -/
def intCurrent (s : State) (t : Nat) : Option Nat :=
  ((List.range 256).filter (fun n => intActive s n && Tab.get 8 s.intc.atgt n == t)).foldl
    (fun (o : Option Nat) n => some (max (o.getD 0) (intPrio s n))) none
/-- The bypass of moderation: WFI of a core, the idle input of a host line. -/
def intIdleSignal (s : State) (t : Nat) : Bool := if t < 4 then (getCore s t).wfi else s.pins.irqIdle.getLsbD (t - 4)

def intSplit (s : State) : Nat := fld (liveReg s 0x240400).toNat 3 0
def intGroup (s : State) (prio : Nat) : Nat := prio / 2 ^ intSplit s
/-- A target may take a source now. -/
def intEligible (s : State) (n t : Nat) : Bool :=
  bitAt (intTargets s n) t && (List.lookup t s.intc.held).isNone &&
    (match intCurrent s t with
     | some c => decide (intGroup s c < intGroup s (intPrio s n))
     | none => true) &&
    (!s.intc.modr.getLsbD t || intIdleSignal s t)
/-- `x` ranks below `y`: idle below every priority. -/
def ranksBelow : Option Nat → Option Nat → Bool
  | none, some _ => true
  | some a, some b => decide (a < b)
  | _, none => false
def intBest (s : State) (n : Nat) : Option Nat :=
  ((List.range 8).filter (intEligible s n)).foldl (fun (o : Option Nat) t =>
    match o with
    | none => some t
    | some b => if ranksBelow (intCurrent s t) (intCurrent s b) then some t else some b) none
/-- Sources that a delivery could be made of, with the target of each. -/
def intOffers (s : State) : List (Nat × Nat) :=
  (List.range 256).filterMap (fun n =>
    if intPending s n && intEnabled s n && !intActive s n then (intBest s n).map (fun t => (n, t)) else none)
/-- The first offer in the order of arbitration: group, then sub-priority, is the priority itself; then the lower number. -/
def intFirst (s : State) : Option (Nat × Nat) :=
  (intOffers s).foldl (fun (o : Option (Nat × Nat)) x =>
    match o with
    | none => some x
    | some b => if intPrio s b.1 < intPrio s x.1 then some x else some b) none

/-- One CCLK passes: of the window in which a mask that was lifted still stands, and of every pulse. -/
def passGrace (s : State) : State :=
  { s with intc := { s.intc with pulse := 0, grace :=
    (s.intc.grace.filter (fun g => decide (1 < g.2.2))).map (fun g => (g.1, g.2.1, g.2.2 - 1)) } }
/-- The idle inputs of the host lines, as the CCLK samples them: any levels (R302, R387, log 20). -/
def sampleIdle (s : State) : State :=
  if s.boot.stage = 0 then s else bumpFree { s with pins := { s.pins with irqIdle := Config.hostIdle s.freeCtr } }
/-- One arbitration: at most one delivery (R302). -/
def arbitrate (s : State) : State :=
  match intFirst s with
  | some (n, t) =>
    let moderates := fld (liveReg s (0x240500 + 16 * t)).toNat 15 0 != 0
    passGrace { s with intc := { s.intc with held := s.intc.held.put t n,
                                             modr := if moderates then setBit s.intc.modr t true else s.intc.modr } }
  | none => passGrace s

/-- A claim (R303). -/
def intAck (s : State) (req : Req) (t n : Nat) : State :=
  if List.lookup t s.intc.held = some n then
    { s with intc := { s.intc with act := setBit s.intc.act n true, atgt := s.intc.atgt.put n t,
                                   pend := setBit s.intc.pend n false, held := s.intc.held.filter (fun h => h.1 != t) } }
  else reservedWrite s req (0x240508 + 16 * t)
/-- A completion (R303). -/
def intEoi (s : State) (req : Req) (t n : Nat) : State :=
  if intActive s n && List.lookup n s.intc.atgt == some t then
    { s with intc := { s.intc with act := setBit s.intc.act n false, atgt := s.intc.atgt.filter (fun a => a.1 != n) } }
  else reservedWrite s req (0x24050C + 16 * t)

/-- Software source bits (R299). -/
def intSwset (s : State) (i : Nat) (bits : Word) : State :=
  sampleLevels { s with intc := { s.intc with sw := s.intc.sw ||| (bits.setWidth 192 <<< (32 * i)) } }
def intSwclr (s : State) (i : Nat) (bits : Word) : State :=
  sampleLevels { s with intc := { s.intc with sw := s.intc.sw &&& ~~~(bits.setWidth 192 <<< (32 * i)) } }

def moderationExpire (s : State) (t : Nat) : State := { s with intc := { s.intc with modr := setBit s.intc.modr t false } }

/-- A write of `INT_SRC_n` (R300, R301, R304). -/
def intSrcWrite (s : State) (n : Nat) (v : Word) : State :=
  let old := liveReg s (0x240000 + 4 * n)
  let v := v &&& 0x0007FFFF
  let pend := intPending s n
  let lifted := old &&& ~~~v &&& 0x0004FF00
  let grace := if lifted = 0 then s.intc.grace else s.intc.grace.put n (old, 3)
  let intc := { s.intc with grace := grace, pend := if fld old.toNat 17 16 = 0 then setBit s.intc.pend n pend else s.intc.pend }
  setLive { s with intc := intc } (0x240000 + 4 * n) v

/-! The event log (R305, R309, R310). -/

/-- The 128 bits of a record. -/
def EvRec.bits (r : EvRec) : BitVec 128 :=
  r.payload ++ r.code ++ r.time ++ r.seq ++ r.source

/-- The oldest waiting record of a source enters the log, once the log is clear (R309, R314). -/
def logWrite (s : State) (source : Nat) : State :=
  if s.boot.stage.toNat < 3 then s else
  match Tab.get [] s.evt.queues source with
  | [] => s
  | r :: rest =>
    let full := (s.evt.head - s.evt.tail).toNat = 8192
    let t := { s with evt := { s.evt with ring := s.evt.ring.put (s.evt.head.toNat % 8192) r, head := s.evt.head + 1,
                                          tail := if full then s.evt.tail + 1 else s.evt.tail,
                                          queues := s.evt.queues.put source rest } }
    let t := if full then loseEvents t 1 else t
    sampleLevels (unitBack (if source < 28 then intPulse t source else t) 8 1)

/-- A record at a log index. -/
def logRecord (s : State) (i : Word) : BitVec 128 :=
  match List.lookup (i.toNat % 8192) s.evt.ring with | some r => r.bits | none => 0
/-- `EVT_LATCH` (R310). -/
def evtLatch (s : State) (req : Req) : State :=
  let q := getReq s req
  let some_ := s.evt.head != s.evt.tail
  setReq s req { q with record := if some_ then logRecord s s.evt.tail else 0, ridx := s.evt.tail, copied := some_ }

/-- `EVT_TAIL` (R309); a value outside the last 8,192 records is reserved. -/
def evtTail (s : State) (req : Req) (v : Word) : State :=
  if (s.evt.head - v).toNat ≤ 8192 then sampleLevels { s with evt := { s.evt with tail := v } }
  else reservedWrite s req 0x250004

/-- The timestamp wraps (R305). -/
def tsEpoch (s : State) : State :=
  if s.boot.stage = 0 then s else
  let e := s.clock.epoch + 1
  raise { s with clock := { s.clock with ts := 0, epoch := e } } 9 Ev.tsEpoch (e.setWidth 24)

/-! Mailboxes (R311, R312). -/

def mbxOpen (s : State) (req : Req) (n : Nat) : State :=
  if n < 4 then reservedWrite s req 0x260000 else openMailbox s n
def mbxPost (s : State) (req : Req) (n : Nat) : State :=
  if n < 4 then reservedWrite s req 0x260004 else postMailbox s n (getReq s req).pval
def mbxSnap (s : State) (req : Req) (n : Nat) : State :=
  let m := getMbx s n
  setReq s req { getReq s req with sval := m.value, sseq := m.seq, sready := m.ready, smbx := BitVec.ofNat 4 n }

/-! Meanings. -/

def execIntAck (req : Req) (t : Fin 8) (source : BitVec 8) (s : State) : Result :=
  .next (portAccess s req (fun u => intAck u req t.val source.toNat))
def execIntEoi (req : Req) (t : Fin 8) (source : BitVec 8) (s : State) : Result :=
  .next (portAccess s req (fun u => intEoi u req t.val source.toNat))
def execIntSwset (req : Req) (i : Fin 6) (bits : Word) (s : State) : Result :=
  .next (portAccess s req (fun u => intSwset u i.val bits))
def execIntSwclr (req : Req) (i : Fin 6) (bits : Word) (s : State) : Result :=
  .next (portAccess s req (fun u => intSwclr u i.val bits))
def execIntDelivery (s : State) : Result := .next (arbitrate (sampleIdle s))
def execModerationExpire (t : Fin 8) (s : State) : Result := .next (moderationExpire s t.val)
def execEventLogWrite (source : BitVec 8) (s : State) : Result := .next (logWrite s source.toNat)
def execEvtLatch (req : Req) (s : State) : Result := .next (portAccess s req (fun u => evtLatch u req))
def execEvtTailWrite (req : Req) (v : Word) (s : State) : Result := .next (portAccess s req (fun u => evtTail u req v))
def execTsEpoch (s : State) : Result := .next (tsEpoch s)
def execMbxOpen (req : Req) (n : BitVec 4) (s : State) : Result := .next (portAccess s req (fun u => mbxOpen u req n.toNat))
def execMbxPost (req : Req) (n : BitVec 4) (s : State) : Result := .next (portAccess s req (fun u => mbxPost u req n.toNat))
def execMbxSnap (req : Req) (n : BitVec 4) (s : State) : Result := .next (portAccess s req (fun u => mbxSnap u req n.toNat))

end Sys2Proof.Machine
end

