-- ==== Sys2Proof/Machine/Bundles.lean ====
section
/-! DEFINITION. Bundles as bytes, malformed bundles, broadcasts (R183 to R191). -/

namespace Sys2Proof.Machine

/-! Bundles (R183 to R186). -/

/-- A bundle as read: presence mask, slot words in ascending slot index, flags, bytes. -/
structure Bundle where
  count : Nat
  words : List (Nat × Nat)
  last  : Bool
  barrier : Bool
  flags : Nat
  deriving DecidableEq, Repr

def Bundle.size (b : Bundle) : Nat := 16 + 8 * b.count
/-- The bundle at a host address. -/
def bundleAt (s : State) (a : Nat) : Bundle :=
  let mask := portNat s a 14
  let count := portNat s (a + 14) 1
  let flags := portNat s (a + 15) 1
  let idx := (List.range 112).filter (bitAt mask)
  { count := count, words := ((List.range idx.length).zip idx).map (fun x => (x.2, portNat s (a + 16 + 8 * x.1) 8)),
    last := bitAt flags 0, barrier := bitAt flags 1, flags := flags }

/-- A slot index the class has (R184). -/
def slotPresent (s : State) (i : Nat) : Bool :=
  if i < 64 then decide (i / 8 < s.slabs)
  else if i < 96 then decide (i % 8 < s.slabs)
  else decide (i ≤ 98)
/-- An opcode that the slot's class defines in this class of block. -/
def slotOpcode (s : State) (i op : Nat) : Bool :=
  op == 0 ||
    (if i < 64 then decide (op ≤ 2)
     else if i < 88 then op == 1
     else if i < 96 then (if s.isZ64 then decide (3 ≤ op) && decide (op ≤ 7) else op != 3 && decide (op ≤ 7))
     else if i < 98 then decide (op ≤ 2)
     else decide (op ≤ 3))

/-- Logical arrays of a broadcast word, ascending. -/
def bcastTargets (w : Nat) : List Nat :=
  (List.range 64).filter (fun i => bitAt (fld w 50 43) (i / 8) && bitAt (fld w 58 51) (i % 8))
def isBcast (i w : Nat) : Bool := decide (i < 64) && fld w 63 60 != 0 && bitAt w 59
/-- A broadcast is carried by its lowest target, the other targets' slots are absent, and every target exists. -/
def bcastOk (s : State) (b : Bundle) (i w : Nat) : Bool :=
  let ts := bcastTargets w
  ts.head? == some i && ts.all (fun t => decide (t / 8 < s.slabs) && (t == i || !b.words.any (fun x => x.1 == t)))
/-- The operand context a slot word names. -/
def wordCtx (i w : Nat) : Option Nat :=
  let op := fld w 63 60
  if i < 64 then (if op = 1 then some (fld w 42 35) else none)
  else if 88 ≤ i ∧ i < 96 then
    (if op = 4 ∨ op = 5 ∨ op = 6 then some (fld w 50 43) else if op = 7 then some (fld w 31 24) else none)
  else none
/-- A slot word holds no reserved value. -/
def wordOk (s : State) (b : Bundle) (nctx : Nat) (x : Nat × Nat) : Bool :=
  let i := x.1
  let w := x.2
  let op := fld w 63 60
  slotPresent s i && slotOpcode s i op && (!isBcast i w || bcastOk s b i w) &&
    (match wordCtx i w with | some c => decide (c < nctx) | none => true) &&
    !(decide (88 ≤ i) && decide (i < 96) && op == 7 &&
      (fld w 59 52 == 0 || Nat.log2 (fld w 59 52) != i - 88)) &&
    !(i == 98 && op == 1 && fld w 15 0 == 0) && !(i == 98 && op == 2 && decide (fld w 44 35 < fld w 54 45))
/-- The bundle at offset `o` of a passage of `blen` bytes is well formed (R185). -/
def bundleOk (s : State) (b : Bundle) (e : PEntry) (o : Nat) : Bool :=
  decide (o + 16 ≤ e.blen) && b.count == b.words.length && decide (o + b.size ≤ e.blen) &&
    b.last == (o + b.size == e.blen) && b.words.all (wordOk s b e.nctx)

/-- Reserved fields of a slot word (R14, R188 to R191). -/
def wordReserved (s : State) (x : Nat × Nat) : Bool :=
  let i := x.1
  let w := x.2
  let op := fld w 63 60
  let z := fun (hi lo : Nat) => fld w hi lo != 0
  if op = 0 then false
  else if i < 64 then (!bitAt w 59 && z 58 43) || (op == 1 && !s.isZ64 && bitAt w 20)
  else if i < 88 then (decide (72 ≤ i) && z 59 56) || z 39 0
  else if i < 96 then
    (if op = 1 then z 21 0 else if op = 2 then z 50 0 else if op = 3 then z 50 33 || z 22 0
     else if op = 5 then z 41 0 else if op = 6 then z 30 0 || (!s.isZ64 && bitAt w 41) else false)
  else if i < 98 then z 59 56 || z 39 0
  else if op = 1 then z 59 16 else if op = 2 then z 34 0 else z 57 32
def bundleReserved (s : State) (b : Bundle) : Bool := decide (4 ≤ b.flags) || b.words.any (wordReserved s)

/-- The slots of a bundle in ascending index, numbered as operations from `op` on. Each target of a broadcast has the word in its
own slot (R186). -/
def bundleSlots (b : Bundle) (p op : Nat) : List Slot :=
  let all := b.words.flatMap (fun x => (if isBcast x.1 x.2 then bcastTargets x.2 else [x.1]).map (fun t => (t, x.2)))
  let up := (List.range 112).filterMap (fun t => all.find? (fun y => y.1 == t))
  ((List.range up.length).zip up).map (fun y =>
    { index := y.2.1, array := y.2.1, word := BitVec.ofNat 64 y.2.2, passage := p, op := op + y.1, scalars := [] })

end Sys2Proof.Machine
end

