-- ==== Sys2Proof/Machine/Gather.lean ====
section
/-! DEFINITION. Collective descriptors, frame buffers, the writes of the collective port into host memory, and the gather (R235, R250,
R255, R256, R259, R281). -/

namespace Sys2Proof.Machine

/-! Slots and descriptors (R250). -/

structure CollDesc where
  kind   : Nat
  group  : Nat
  tensor : Nat
  t0     : Nat
  ntiles : Nat
  ctx    : Nat
  flags  : Nat
  slab   : Nat
  reserved : Bool
  deriving DecidableEq, Repr

def CollDesc.ofBytes (b : List Byte) : CollDesc :=
  let k := fieldAt b 0 1
  { kind := k, group := fieldAt b 1 1, tensor := fieldAt b 2 2, t0 := fieldAt b 4 4, ntiles := fieldAt b 8 2,
    ctx := fieldAt b 0xA 1, flags := fieldAt b 0xB 1, slab := fieldAt b 0xC 1,
    reserved := if k = 4 then fieldAt b 1 1 != 0 || decide (2 ^ 13 ≤ fieldAt b 4 4) || !allZero (slice b 8 0x40)
      else !allZero (slice b 0xD 0x40) || decide (8 ≤ fieldAt b 0xC 1) ||
        (if k = 3 then decide (4 ≤ fieldAt b 0xB 1) else fieldAt b 0xB 1 != 0) }
/-- Order a gather names: W or Wᵀ. -/
def CollDesc.order (d : CollDesc) : Nat := d.flags % 2
def CollDesc.waitAll (d : CollDesc) : Bool := bitAt d.flags 1

def groupValid (s : State) (g : Nat) : Bool := s.rlp.groups.contains g
/-- The descriptor holds; what depends on the group is checked where the group is valid. -/
def CollDesc.ok (s : State) (opcode : Nat) (d : CollDesc) : Bool :=
  let h := rgroup s d.group
  !d.reserved &&
    (if opcode = 2 then d.kind == 4 && decide (1 ≤ d.t0) && decide (d.t0 ≤ 4096)
     else decide (1 ≤ d.kind) && decide (d.kind ≤ 3) && decide (1 ≤ d.ntiles) && decide (d.ntiles ≤ 4096) &&
       decide (d.group < 64) && decide (d.slab < s.slabs) &&
       (!groupValid s d.group ||
         (decide (d.tensor < h.ntensors) && decide (d.t0 + d.ntiles ≤ (gtensor s h d.tensor).tiles) &&
           (d.kind == 3 || (d.kind == 1) == h.sparse))))
def Slot.coll (s : State) (sl : Slot) : CollDesc := CollDesc.ofBytes (descBytes s sl.passage sl.descIndex)
def collListed (s : State) (sl : Slot) : Bool := decide (sl.descIndex < (pentry s sl.passage).ndesc)
def collValid (s : State) (sl : Slot) : Bool := collListed s sl && (sl.coll s).ok s sl.opcode
def collCtxOk (s : State) (sl : Slot) : Bool :=
  let d := sl.coll s
  sl.opcode == 2 || (decide (d.ctx < (pentry s sl.passage).nctx) && (ctxOf s sl.passage d.ctx).good 2)
/-- A frame takes, or leaves, a frame buffer. -/
def bufferFrame (s : State) (f : Frame) : State :=
  unitOut { s with rlp := { s.rlp with fbuf := s.rlp.fbuf ++ [f] } } 3 1
def dropFrame (s : State) (f : Frame) : State :=
  unitBack { s with rlp := { s.rlp with fbuf := s.rlp.fbuf.erase f } } 3 1

/-! Writes of the collective port: transfers on the block-wide stream (R256, R259, R281). -/

/-- Write bytes through the memory port. -/
def putJob (s : State) (kind : JobKind) (addr : Nat) (bytes : List Byte) : State :=
  let n := s.bmp.nextJob
  let job : Job := { id := n, kind := kind, reads := false, writes := true, src := 0, dst := addr, slab := 0, part := 0, off := 0,
                     len := bytes.length, rdIssued := 0, rdDone := 0, wrIssued := 0, wrDone := 0, rdSince := n, wrSince := n,
                     buf := Mem.setBytes [] 0 bytes, failed := false, spec := false }
  { s with bmp := { s.bmp with jobs := s.bmp.jobs ++ [job], nextJob := n + 1 } }
/-- Codes packed in ascending order; the pad nibble of an odd row is zero (R26). -/
def packCodes (fmt : Nat) (codes : List Nat) : List Byte :=
  let k := fmtNibs fmt
  leBytes (ceilDiv (codes.length * k) 2) (codes.foldr (fun c n => c % 16 ^ k + 16 ^ k * n) 0)
/-- Element `i` of a packed tile. -/
def packedCode (b : List Byte) (fmt i : Nat) : Nat :=
  if fmtBits fmt = 4 then fld (fieldAt b (i / 2) 1) (3 + 4 * (i % 2)) (4 * (i % 2))
  else fieldAt b (i * (fmtBits fmt / 8)) (fmtBits fmt / 8)
/-! The gather (R235, R259). -/

/-- Elements of a tile that lie within the tensor: row and column in the tile. -/
def GTensor.inTile (x : GTensor) (t : Nat) : List (Nat × Nat) :=
  (List.range 65536).filterMap (fun i =>
    if 256 * (t / x.bcols) + i / 256 < x.rows ∧ 256 * (t % x.bcols) + i % 256 < x.cols then some (i / 256, i % 256) else none)
/-- First row and column of a tile in the order a gather names, with the extents of the tensor in that order. -/
def GTensor.ordered (x : GTensor) (order t : Nat) : Nat × Nat × Nat × Nat :=
  let r := 256 * (t / x.bcols)
  let c := 256 * (t % x.bcols)
  if order = 1 then (c, r, x.cols, x.rows) else (r, c, x.rows, x.cols)
/-- Write a tile, row by row, into a buffer of a version; `code` gives the code of a row and a column in the named order. -/
def GTensor.putTile (x : GTensor) (s : State) (key base order fmt t : Nat) (code : Nat → Nat → Nat) : State :=
  let (r0, c0, rows, cols) := x.ordered order t
  (List.range (min 256 (rows - r0))).foldl (fun u i =>
    putJob u (.put (some key)) (rowPlace base cols fmt (r0 + i) c0 / 2)
      (packCodes fmt ((List.range (min 256 (cols - c0))).map (code i)))) s
/-- The key of a gathered tile: group, tensor, tile, order. -/
def gatherKey (g tensor t order : Nat) : Nat := ((g * 65536 + tensor) * 2 ^ 32 + t) * 2 + order

/-- Write a gathered tile into the new version's buffer. -/
def writeGather (s : State) (x : GTensor) (f : Frame) : State :=
  let s := noteVer s x.tensor
  if !verOk s x.tensor then s else
  x.putTile (markUpdating s x.tensor) (gatherKey f.group f.tensor f.tile f.level)
    (verBuffer s x.tensor (nextBuffer s x.tensor) (f.level == 1)) f.level f.fmt f.tile
    (fun i k => packedCode f.payload f.fmt (i * 256 + k))
/-- A masked tile of a receiver: the current version's codes go into the new version's buffer (R123). -/
def keepGather (s : State) (x : GTensor) (g i order fmt t : Nat) : State :=
  let s := noteVer s x.tensor
  if !verOk s x.tensor || verStash s x.tensor == 0 then s else
  let old := verBuffer s x.tensor (curBuffer (getVer s x.tensor)) (order == 1)
  let (r0, c0, _, cols) := x.ordered order t
  x.putTile (markUpdating s x.tensor) (gatherKey g i t order) (verBuffer s x.tensor (nextBuffer s x.tensor) (order == 1)) order fmt t
    (fun r c => hostCode s (rowPlace old cols fmt (r0 + r) (c0 + c)) fmt)

/-- A gather slot of a group is among the bundles of a passage from an address on. -/
def gatherAhead (s : State) (p g a stop : Nat) : Nat → Bool
  | 0 => false
  | n + 1 =>
    if stop ≤ a then false else
    let b := bundleAt s a
    b.words.any (fun x => decide (96 ≤ x.1 ∧ x.1 < 98) && fld x.2 63 60 == 1 &&
      (let d := CollDesc.ofBytes (descBytes s p (fld x.2 55 40)); d.kind == 3 && d.group == g)) ||
      gatherAhead s p g (a + b.size) stop n
/-- A gather slot of a group has yet to issue in this step (R259). -/
def gatherComing (s : State) (g : Nat) : Bool :=
  (passageList s).any (fun p =>
    let e := pentry s p
    let x := getPassage s p
    e.valid && !passageDone s p && gatherAhead s p g (if x.status == .notStarted then e.bundles else x.ptr) (e.bundles + e.blen) (e.blen / 16))
/-- An operation with no frame left finishes; one that waits for all of a gather, once that is complete. -/
def settleFrames (s : State) (op : Nat) : State :=
  match findOp s op with
  | some o =>
    match o.kind with
    | .frames _ 0 none => finishOp s op
    | .frames _ 0 (some g) => if gatherDone s g && !gatherWrites s && !gatherComing s g then finishOp s op else s
    | .stats _ 0 => finishOp s op
    | _ => s
  | none => s
def settleGathers (s : State) : State := (s.psc.ops.map (·.id)).foldl settleFrames s
/-- The frame of a gathered tile. -/
def gatherFrame (s : State) (key : Nat) : Option Frame :=
  s.rlp.fbuf.find? (fun f => f.typ == 3 && gatherKey f.group f.tensor f.tile f.level == key)
/-- Once every write of a gathered tile has completed, its buffer is free and the tile counts as written (R255, R259). -/
def gatherWritten (s : State) (key : Nat) : State :=
  if s.bmp.jobs.any (fun j => j.kind == .put (some key)) then s else
  let s := match gatherFrame s key with
    | some f => dropFrame { s with rlp := { s.rlp with gathered := (f.group, f.tensor, f.tile, f.level) :: s.rlp.gathered } } f
    | none => s
  tryBoundary (settleGathers s)

end Sys2Proof.Machine
end

