-- ==== Sys2Proof/Machine/FpOps.lean ====
section
/-! DEFINITION. The operations of the vector engine's element programs (R219 to R224). Each result is the exact value
of the operation on its FP32 operands, rounded once to nearest even; the transcendental ones are evaluated to about
500 bits before that rounding (log 14). -/

namespace Sys2Proof.Machine

/-! Values that are not dyadic, as a dyadic with a sticky last bit: the value lies strictly between the dyadic
without that bit and the next, so one rounding at fewer bits is the rounding of the value itself. -/

/-- Append a sticky bit. -/
def sticky (m : Nat) (e : Int) (exact : Bool) : Dy := ⟨((2 * m + (if exact then 0 else 1) : Nat) : Int), e - 1⟩

/-- A sign times a magnitude. -/
def signedDy (neg : Bool) (d : Dy) : Dy := if neg then Dy.neg d else d

/-- A quotient of two values, `b` not zero, to 300 bits or more. -/
def quotDy (a b : Dy) : Dy :=
  if a.m = 0 then Dy.zero else
  let n := a.m.natAbs * 2 ^ (300 + Nat.log2 b.m.natAbs)
  let d := b.m.natAbs
  signedDy (decide (a.m < 0) != decide (b.m < 0))
    (sticky (n / d) (a.e - b.e - (300 + Nat.log2 b.m.natAbs : Nat)) (n % d == 0))

/-- The square root of a value above zero. -/
def sqrtDy (a : Dy) : Dy :=
  let m := if a.e % 2 = 0 then a.m.natAbs * 2 ^ 200 else a.m.natAbs * 2 ^ 201
  let e := if a.e % 2 = 0 then a.e - 200 else a.e - 201
  let r := rootBits 2 m (Nat.log2 m / 2 + 1) 0
  sticky r (e / 2) (r * r == m)

/-- The reciprocal of the square root of a value above zero. -/
def rsqrtDy (a : Dy) : Dy :=
  let m := if a.e % 2 = 0 then a.m.natAbs else a.m.natAbs * 2
  let e := if a.e % 2 = 0 then a.e else a.e - 1
  let k := 200 + Nat.log2 m
  let n := 2 ^ (2 * k)
  let r := rootBits 2 (n / m) (k + 1) 0
  sticky r (-(e / 2) - k) (r * r * m == n)

/-! Series in fixed point with 512 fraction bits. -/

def fxBits : Nat := 512
def fxOne : Int := (2 ^ fxBits : Nat)
/-- A value as a fixed-point integer, truncated. -/
def toFx (a : Dy) : Int :=
  let k := a.e + fxBits
  if k ≥ 0 then a.m * 2 ^ k.toNat else a.m / 2 ^ (-k).toNat
def ofFx (x : Int) : Dy := ⟨x, -(fxBits : Int)⟩
def fxMul (a b : Int) : Int := a * b / fxOne

/-- `Σ z^(2i+1)/(2i+1)` over `n` terms, the series of artanh; `w` is the running power. -/
def atanhSeries (z2 : Int) : Nat → Nat → Int → Int
  | 0, _, _ => 0
  | n + 1, i, w => w / (2 * i + 1 : Nat) + atanhSeries z2 n (i + 1) (fxMul w z2)
def fxAtanh (n : Nat) (z : Int) : Int := atanhSeries (fxMul z z) n 0 z
/-- ln 2 = 2 artanh(1/3). -/
def fxLn2 : Int := 2 * fxAtanh 170 (fxOne / 3)
/-- `Σ x^i/i!` over `n` more terms. -/
def expSeries (x : Int) : Nat → Nat → Int → Int
  | 0, _, _ => 0
  | n + 1, i, w => w + expSeries x n (i + 1) (fxMul w x / (i + 1 : Nat))
/-- `e^x` for `x` in fixed point, |x| below 300: a value between 2/3 and 3/2 times a power of two. -/
def expFx (x : Int) : Dy :=
  let k := (2 * x + fxLn2) / (2 * fxLn2)
  Dy.scale (ofFx (expSeries (x - k * fxLn2) 110 0 fxOne)) k
/-- ln of a value above zero, in fixed point. -/
def lnParts (a : Dy) : Int × Int :=
  let l := Dy.log2 a
  let m := toFx (Dy.scale (Dy.abs a) (-l))
  let big := decide (2 * m > 3 * fxOne)
  let m := if big then m / 2 else m
  let l := if big then l + 1 else l
  (l, 2 * fxAtanh 130 ((m - fxOne) * fxOne / (m + fxOne)))
def lnFx (a : Dy) : Int := let p := lnParts a; p.1 * fxLn2 + p.2
/-- π by Machin's formula. -/
def atanSeries (z2 : Int) : Nat → Nat → Int → Int
  | 0, _, _ => 0
  | n + 1, i, w => w / (2 * i + 1 : Nat) - atanSeries z2 n (i + 1) (fxMul w z2)
def fxAtan (n : Nat) (z : Int) : Int := atanSeries (fxMul z z) n 0 z
def fxPi : Int := 4 * (4 * fxAtan 120 (fxOne / 5) - fxAtan 60 (fxOne / 239))
/-- √(2π). -/
def sqrt2pi : Dy := ⟨(rootBits 2 (2 * fxPi * fxOne).toNat 515 0 : Int), -(fxBits : Int)⟩

/-- `e^a` with the exponent held to where the result saturates or is zero. -/
def expDy (a : Dy) : Dy :=
  if Dy.lt ⟨200, 0⟩ a then ⟨1, 280⟩ else if Dy.lt a ⟨-200, 0⟩ then ⟨1, -280⟩ else expFx (toFx a)
def exp2Dy (a : Dy) : Dy :=
  if Dy.lt ⟨300, 0⟩ a then ⟨1, 300⟩ else if Dy.lt a ⟨-300, 0⟩ then ⟨1, -300⟩ else
  let x := toFx a
  let k := x / fxOne
  let f := x % fxOne
  if f = 0 then ⟨1, k⟩ else Dy.scale (expFx (fxMul f fxLn2)) k
def log2Dy (a : Dy) : Dy :=
  let p := lnParts a
  if p.2 = 0 then ⟨p.1, 0⟩ else ofFx (p.1 * fxOne + p.2 * fxOne / fxLn2)
def tanhDy (a : Dy) : Dy :=
  if Dy.lt ⟨40, 0⟩ (Dy.abs a) then signedDy (decide (a.m < 0)) ⟨2 ^ 60 - 1, -60⟩
  else let t := expDy (Dy.scale a 1); quotDy (Dy.sub t ⟨1, 0⟩) (Dy.add t ⟨1, 0⟩)
def sigmDy (a : Dy) : Dy := let t := expDy a; quotDy t (Dy.add t ⟨1, 0⟩)
/-- φ(a). -/
def npdfDy (a : Dy) : Dy := quotDy (expDy (Dy.neg (Dy.scale (Dy.mul a a) (-1)))) sqrt2pi
/-- `Σ (−1)^i x^(2i+1) / (i! 2^i (2i+1))`; `w` is the running `(−1)^i x^(2i+1)/(i! 2^i)`. -/
def normSeries (x2 : Int) : Nat → Nat → Int → Int
  | 0, _, _ => 0
  | n + 1, i, w => w / (2 * i + 1 : Nat) + normSeries x2 n (i + 1) (-(fxMul w x2) / (2 * (i + 1) : Nat))
/-- Φ(a). -/
def ncdfDy (a : Dy) : Dy :=
  if Dy.lt ⟨15, 0⟩ a then ⟨2 ^ 60 - 1, -60⟩ else if Dy.lt a ⟨-15, 0⟩ then ⟨1, -170⟩ else
  let x := toFx a
  Dy.add ⟨1, -1⟩ (quotDy (ofFx (normSeries (fxMul x x) 900 0 x)) sqrt2pi)

/-! Op results. -/

/-- What one op gives: an FP32 code, and whether it saturated or was a domain case (R220, R221). -/
structure OpRes where
  code : Nat
  sat  : Bool
  dom  : Bool
  deriving DecidableEq, Repr

/-- Round once to FP32; the saturation counts (R220). -/
def rnd32 (y : Dy) : OpRes := let c := convert 9 y none; ⟨c.code, c.clipped, false⟩
def domain (y : Dy) : OpRes := ⟨toF32 y, false, true⟩
def max32 : Dy := maxFinite 9
def one32 (b : Bool) : OpRes := ⟨if b then 0x3F800000 else 0, false, false⟩
/-- The integer nearest zero-ward of a value, clamped to ±300 (R221 scl). -/
def truncInt (b : Dy) : Int :=
  let m : Nat := (floorAt b.m.natAbs b.e 0).1
  let n : Int := if b.m < 0 then -(m : Int) else (m : Int)
  max (-300) (min 300 n)

/-- An op of R221 on the values of its sources; `ru` and `rk` are the words drawn for rnd and keep, none where the
port is undeclared (R173). -/
def veOp (op : Nat) (a b c : Dy) (ru rk : Option Word) : OpRes :=
  let pos := decide (0 < a.m)
  match op with
  | 0x01 => rnd32 a
  | 0x02 => rnd32 (Dy.add a b)
  | 0x03 => rnd32 (Dy.sub a b)
  | 0x04 => rnd32 (Dy.mul a b)
  | 0x05 => rnd32 (Dy.add (Dy.mul a b) c)
  | 0x06 => rnd32 (Dy.sub c (Dy.mul a b))
  | 0x07 => if b.m = 0 then (if a.m = 0 then domain Dy.zero else domain (signedDy (decide (a.m < 0)) max32))
            else rnd32 (quotDy a b)
  | 0x08 => if a.m = 0 then domain max32 else rnd32 (quotDy ⟨1, 0⟩ a)
  | 0x09 => if a.m < 0 then domain Dy.zero else if a.m = 0 then rnd32 Dy.zero else rnd32 (sqrtDy a)
  | 0x0A => if pos then rnd32 (rsqrtDy a) else domain max32
  | 0x0B => rnd32 (expDy a)
  | 0x0C => rnd32 (exp2Dy a)
  | 0x0D => if pos then rnd32 (ofFx (lnFx a)) else domain (Dy.neg max32)
  | 0x0E => if pos then rnd32 (log2Dy a) else domain (Dy.neg max32)
  | 0x0F => rnd32 (tanhDy a)
  | 0x10 => rnd32 (sigmDy a)
  | 0x11 => rnd32 (ncdfDy a)
  | 0x12 => rnd32 (npdfDy a)
  | 0x13 => rnd32 (if Dy.lt a b then b else a)
  | 0x14 => rnd32 (if Dy.lt b a then b else a)
  | 0x15 => rnd32 (Dy.abs a)
  | 0x16 => rnd32 (Dy.neg a)
  | 0x17 => rnd32 (Dy.ofInt (if pos then 1 else if a.m = 0 then 0 else -1))
  | 0x18 => one32 (Dy.lt b a)
  | 0x19 => one32 (Dy.le b a)
  | 0x1A => one32 (Dy.eq a b)
  | 0x1B => rnd32 (if a.m = 0 then c else b)
  | 0x1C => let m := if Dy.lt c a then c else a
            rnd32 (if Dy.lt b m then m else b)
  | 0x1D => match ru with
            | some w => rnd32 ⟨(w.toNat / 256 : Nat), -24⟩
            | none => rnd32 Dy.zero
  | 0x1E => match rk with
            | some w => one32 (decide ((w.toNat : Int) < (if a.m ≤ 0 then 0 else
                (min (floorAt a.m.natAbs (a.e + 32) 0).1 (2 ^ 32) : Nat))))
            | none => one32 true
  | 0x20 => rnd32 (Dy.scale a (truncInt b))
  | _ => rnd32 Dy.zero

/-- The opcodes R221 defines. -/
def veOpDefined (op : Nat) : Bool := (decide (1 ≤ op) && decide (op ≤ 0x1E)) || op == 0x20
/-- How many sources an op uses (R219, R221). -/
def veOpSources (op : Nat) : Nat :=
  if op = 5 ∨ op = 6 ∨ op = 0x1B ∨ op = 0x1C then 3
  else if (2 ≤ op ∧ op ≤ 7 ∧ op ≠ 5 ∧ op ≠ 6) ∨ op = 0x13 ∨ op = 0x14 ∨ op = 0x18 ∨ op = 0x19 ∨ op = 0x1A ∨ op = 0x20 then 2
  else if op = 0x1D then 0 else 1

/-! Reductions over lists of FP32 codes (R223, R224). -/

/-- Add two FP32 codes with one rounding. -/
def add32 (a b : Nat) : OpRes := rnd32 (Dy.add (ofF32 a) (ofF32 b))
/-- One level of the tree: adjacent pairs, lower index on the left. Counts saturations. -/
def treeLevel : List Nat → List Nat × Nat
  | [] => ([], 0)
  | [a] => ([a], 0)
  | a :: b :: t =>
    let r := add32 a b
    let q := treeLevel t
    (r.code :: q.1, q.2 + (if r.sat then 1 else 0))
/-- `n` levels of the tree. -/
def treeLevels : Nat → List Nat × Nat → List Nat × Nat
  | 0, x => x
  | n + 1, x => let l := treeLevel x.1; treeLevels n (l.1, x.2 + l.2)
/-- The sum of R223, padded with +0 to a power of two, and its saturations. -/
def treeSum (xs : List Nat) : Nat × Nat :=
  let n := log2Up xs.length
  let r := treeLevels n (xs ++ List.replicate (2 ^ n - xs.length) 0, 0)
  (r.1.headD 0, r.2)
/-- The squares of R224, each rounded. -/
def squares (xs : List Nat) : List Nat × Nat :=
  let rs := xs.map (fun x => rnd32 (Dy.mul (ofF32 x) (ofF32 x)))
  (rs.map (·.code), (rs.filter (·.sat)).length)
/-- The extreme value under a choice of the better of two. -/
def extreme (better : Dy → Dy → Bool) : List Nat → Nat
  | [] => 0
  | x :: xs => xs.foldl (fun b y => if better (ofF32 y) (ofF32 b) then y else b) x
/-- A reduction of R224 by op code, and its saturations. -/
def reduceOp (op : Nat) (xs : List Nat) : Nat × Nat :=
  match op with
  | 0 => treeSum xs
  | 1 => let q := squares xs; let r := treeSum q.1; (r.1, r.2 + q.2)
  | 2 => (extreme (fun y b => Dy.lt b y) xs, 0)
  | 3 => (extreme (fun y b => Dy.lt y b) xs, 0)
  | 4 => (extreme (fun y b => Dy.lt (Dy.abs b) (Dy.abs y)) (xs.map (fun x => x % 2 ^ 31)), 0)
  | _ => (0, 0)

end Sys2Proof.Machine
end

