-- ==== Sys2Proof/Machine/SumpOps.lean ====
section
/-! DEFINITION. The sump and combiner slots: groups and regions, drains with rescale, fuse and rounding, top-8 lists,
spill and reload, the combining tree (R89 to R104, R123, R144 to R150, R189). -/

namespace Sys2Proof.Machine

def Slot.sumpSlot (sl : Slot) (slab op : Nat) : Bool := sl.index == 88 + slab && sl.opcode == op
def noteGroup (s : State) (code a : Nat) : State := raiseOpen s (slabSource (arraySlab a)) code
def Slot.toOp (sl : Slot) (k : OpKind) (w : List Span) : Op :=
  { id := sl.op, passage := sl.passage, slot := sl.index, kind := k, writes := w }
/-- An operation takes hold of a group or region until it is done with it (R95). -/
def holdGroup (s : State) (k op : Nat) : State :=
  let g := groupOf s k
  setGroup s k { g with busy := if g.busy.contains op then g.busy else op :: g.busy }
def freeGroup (s : State) (k op : Nat) : State :=
  let g := groupOf s k
  if g.busy.contains op then setGroup s k { g with busy := g.busy.filter (· != op) } else s
/-- Close a group: its rows are free. Operations that still hold it, and chunks in flight for it, stay counted (R91, R95). -/
def closeGroup (s : State) (k : Nat) : State :=
  let g := groupOf s k
  let t := freshRows s (k / 64) g.rowBase g.rowCount
  if g.busy.isEmpty && g.inflight == 0 then { t with sump := { t.sump with groups := t.sump.groups.filter (fun kv => kv.1 != k) } }
  else setGroup t k { Group.closed with busy := g.busy, inflight := g.inflight }

/-! OPEN, CLOSE, ANCHOR (R91, R92, R204). -/

def rowsOverlap (b n c m : Nat) : Bool := decide (b < c + m) && decide (c < b + n)
/-- The open is refused. -/
def openRefused (s : State) (a g base count : Nat) : Bool :=
  decide (8 ≤ g) || count == 0 || decide (384 < base + count) || (groupOf s (groupKey a g)).isOpen ||
    (List.range 8).any (fun h => let x := groupOf s (groupKey a h); x.isOpen && rowsOverlap base count x.rowBase x.rowCount)
def doOpen (s : State) (sl : Slot) : State :=
  let a := sl.sumpArray
  let base := sl.bits 50 42
  let count := sl.bits 41 33
  if s.isZ64 then s
  else if openRefused s a sl.group base count then noteGroup s Ev.groupConflict a
  else
    let shadow := (getPassage s sl.passage).spec
    let s := setGroup (freshRows s a base count) sl.sumpKey
      { Group.closed with isOpen := true, shadow := shadow, rowBase := base, rowCount := count,
                          anchor := signed 10 (sl.bits 32 23), owner := sl.passage,
                          inflight := (groupOf s sl.sumpKey).inflight, busy := (groupOf s sl.sumpKey).busy }
    if shadow then takeOwner s sl.sumpKey sl.passage else s
def doClose (s : State) (sl : Slot) : State :=
  if s.isZ64 then s
  else if (groupOf s sl.sumpKey).isOpen then closeGroup s sl.sumpKey
  else noteGroup s Ev.groupClosed sl.sumpArray
/-- A write of an anchor-table entry makes the region fresh. DESIGN CHOICE: with its elements, everything is cleared that R92 clears where
a swap makes a region fresh: shadow flag, counts, progress and owner (log 115). -/
def doAnchor (s : State) (sl : Slot) : State :=
  if !s.isZ64 then s else
  let g := groupOf s sl.sumpKey
  setGroup (freshRows s sl.sumpArray g.rowBase g.rowCount) sl.sumpKey
    { Group.closed with isOpen := true, rowBase := g.rowBase, rowCount := g.rowCount, anchor := signed 10 (sl.bits 32 23) }

/-! The drain path (R100, R147, R150). -/

/-- What a drain needs of its slot. -/
structure Drain where
  array   : Nat
  group   : Nat
  ctxId   : Nat
  passage : Nat
  op      : Nat
  mode    : Nat
  n0      : Nat
  m0      : Nat
  cx      : Ctx
  st      : Stream
  deriving DecidableEq, Repr

def Drain.make (s : State) (a g p op ctx mode n0 m0 : Nat) : Drain :=
  let cx := ctxOf s p ctx
  { array := a, group := g, ctxId := ctx, passage := p, op := op, mode := mode, n0 := n0, m0 := m0, cx := cx,
    st := streamOf s cx.stream }
def Drain.slab (d : Drain) : Nat := arraySlab d.array
def Drain.rows (s : State) (d : Drain) : Nat := (groupOf s (groupKey d.array d.group)).rowCount

/-- Scale and bias of a channel of a rescale table, as the step copied it. -/
def rescaleOf (s : State) (t ch : Nat) : Dy × Dy :=
  if t = 0xFF ∨ rescaleCount s t ≤ ch then (⟨1, 0⟩, Dy.zero)
  else (ofF32 (inNat s (rescaleBase s t + 8 * ch) 4), ofF32 (inNat s (rescaleBase s t + 8 * ch + 4) 4))
def Drain.channel (d : Drain) (i c : Nat) : Nat := if d.cx.axis then d.m0 + i else d.n0 + c

/-- The element of the fused tile, as code and nibble place. -/
def Drain.fused (s : State) (d : Drain) (i c : Nat) : Nat × Bool :=
  let f := (streamOf s d.cx.fstream).fmt
  readBound s d.slab d.cx.fpart (elemAt d.cx.foffset d.cx.fpitch i c f) f

/-- Whether row and block masks leave an element alone: block masked, row masked (R123). -/
def Drain.blockOff (s : State) (d : Drain) (i c : Nat) : Bool :=
  blockMasked s d.cx.mask ((d.m0 + i) / 256) ((d.n0 + c) / 256)
def Drain.rowOff (s : State) (d : Drain) (i : Nat) : Bool := rowMasked s d.cx.mask (d.m0 + i)

/-- The exact value of an element before rounding (steps 1 to 4), and whether its total was outside the window. -/
def Drain.value (s : State) (d : Drain) (i c : Nat) : Dy × Bool :=
  let g := groupOf s (groupKey d.array d.group)
  let t := leave (getTotal s (totKey d.array (g.rowBase + i) c))
  let r := rescaleOf s d.cx.rescale (d.channel i c)
  let y := Dy.add (Dy.mul (totalValue t.1 g.anchor) r.1) r.2
  let e := decode (streamOf s d.cx.fstream).fmt (d.fused s i c).1
  (if d.cx.fuse = 1 then Dy.add y e else if d.cx.fuse = 2 then Dy.mul y e else y, t.2)

/-- Generator key of a drain's rounding; none for round to nearest even (R100, R189). -/
def Drain.stochastic (s : State) (d : Drain) : Bool := rungRound s d.st 0
def Drain.key (s : State) (d : Drain) : Option Quad :=
  if d.stochastic s then consumerKey s 1 d.array 0 1 else none
/-- An element is an outlier channel of its stream (R150). -/
def Drain.outlier (s : State) (d : Drain) (c : Nat) : Bool := (outlierList s d.st).contains (d.n0 + c)

/-- The tile an element belongs to: stored rows and columns, or global ones for the finished-tile queue (R141, R213). DESIGN CHOICE: the
elements of a top-8 drain have no stored place, and their tiles are the group's rows by 256, in one column of tiles (R102, R144,
log 129). -/
def Drain.tile (d : Drain) (i c : Nat) : DrainTile :=
  if d.mode = 0 then { brow := (d.m0 + i) / 256, bcol := (d.n0 + c) / 256 }
  else if 2 ≤ d.mode || d.cx.pitch = 0 then { brow := i / 256, bcol := 0 }
  else
    let o := 2 * i * d.cx.pitch + c * fmtNibs d.st.fmt
    { brow := o / (2 * d.cx.pitch) / 256, bcol := o % (2 * d.cx.pitch) / fmtNibs d.st.fmt / 256 }
/-- Rows and columns of the matrix whose dW block a drain delivers, 0 where none is known: those of the mask it names (R120, R121), else
what the passes of the group told (R111, log 56). -/
def Drain.matrix (s : State) (d : Drain) : Nat × Nat :=
  if d.cx.mask != 0 && maskOk s d.cx.mask then
    let b := maskBytes s d.cx.mask
    (fieldAt b 4 4, fieldAt b 8 4)
  else
    let g := groupOf s (groupKey d.array d.group)
    (g.wrows, g.wcols)
/-- An element lies in the matrix (R111). -/
def Drain.filled (s : State) (d : Drain) (i c : Nat) : Bool :=
  let w := d.matrix s
  (w.1 == 0 || decide (d.m0 + i < w.1)) && (w.2 == 0 || decide (d.n0 + c < w.2))
/-- What a drain of a fused tile reads of it, row by row. -/
def Drain.fusedSpans (s : State) (d : Drain) : List Span :=
  if d.cx.fuse = 0 then [] else
  let f := (streamOf s d.cx.fstream).fmt
  (List.range (d.rows s)).map (fun i => byteSpan d.slab d.cx.fpart (d.cx.foffset + i * d.cx.fpitch) (128 * fmtNibs f))
/-- What a drain writes into staging, row by row: nothing of a masked block, nothing past the matrix (R111, R123). -/
def Drain.spans (s : State) (d : Drain) : List Span :=
  sideSpans s d.slab d.cx.stream ++ if d.mode = 0 then [] else
  (List.range (d.rows s)).flatMap (fun i =>
    let live := (List.range 256).filter (fun c => d.filled s i c && !d.blockOff s i c)
    match live.head?, live.getLast? with
    | some a, some b => if d.mode = 1 then [d.cx.span d.slab i a (b + 1 - a) (fmtNibs d.st.fmt)]
        else [byteSpan d.slab d.cx.part (d.cx.offset + 64 * i) 64]
    | _, _ => [])
/-- Columns that a drain writes in each row. -/
def Drain.width (s : State) (d : Drain) : Nat := let w := d.matrix s; if w.2 = 0 then 256 else min 256 (w.2 - d.n0)
/-- Every place of a drain, row by row. -/
def Drain.places (s : State) (d : Drain) : List (Nat × Nat) :=
  ((List.range (d.rows s)).flatMap (fun i => (List.range 256).map (fun c => (i, c)))).filter (fun x => d.filled s x.1 x.2)
/-- Tiles with an element outside masked blocks, in row-major order. -/
def Drain.tiles (s : State) (d : Drain) : List DrainTile :=
  let all := ((d.places s).filter (fun x => !d.blockOff s x.1 x.2)).map (fun x => d.tile x.1 x.2)
  all.foldl (fun l t => if l.contains t then l else l ++ [t]) []

/-- Write an element into staging, unless its place is outside the window (R26, R187). -/
def writeBound (s : State) (slab part nib fmt code : Nat) (pad : Bool) : State :=
  if inWindow s slab part nib fmt then writeElem s slab part nib fmt code pad else s

/-- Put a code where the drain delivers it; `width` is the number of columns of a row. -/
def Drain.deliver (s : State) (d : Drain) (width i c code : Nat) : State :=
  if d.mode = 0 then
    let v := getVe s d.slab
    let t := d.tile i c
    let key := ((d.m0 + i) % 256) * 256 + (d.n0 + c) % 256
    let q := mapFirst (fun (e : FtqEntry) => e.op == d.op && e.brow == t.brow && e.bcol == t.bcol)
      (fun e => { e with codes := e.codes.put key code }) v.ftq
    setVe s d.slab { v with ftq := q }
  else writeBound s d.slab d.cx.part (elemAt d.cx.offset d.cx.pitch i c d.st.fmt) d.st.fmt code (endsOdd width c)

/-- An entry of a top-8 list comes before another (R102). -/
def topBefore (fmt : Nat) (a b : Nat × Nat) : Bool :=
  if a.2 = 0xFFFFFFFF then false else if b.2 = 0xFFFFFFFF then true
  else Dy.lt (decode fmt b.1) (decode fmt a.1) || (Dy.eq (decode fmt a.1) (decode fmt b.1) && decide (a.2 < b.2))
def topInsert (fmt : Nat) (e : Nat × Nat) : List (Nat × Nat) → List (Nat × Nat)
  | [] => [e]
  | x :: xs => if topBefore fmt e x then e :: x :: xs else x :: topInsert fmt e xs
/-- Merge the codes of row `i` into its list. -/
def Drain.mergeTop (s : State) (d : Drain) (i : Nat) (es : List (Nat × Nat)) : State :=
  let k := stKey d.slab d.cx.part (d.cx.offset + 64 * i)
  let inside := decide (d.cx.offset + 64 * i + 64 ≤ windowBytes s d.slab d.cx.part)
  let word := fun (o : Nat) => leNat ((List.range 4).map (fun j => stByte s (k + o + j)))
  let old := if d.mode = 3 || !inside then List.replicate 8 (0, 0xFFFFFFFF)
    else (List.range 8).map (fun j => (word (8 * j), word (8 * j + 4)))
  let new := (es.foldl (fun l e => topInsert d.st.fmt e l) old).take 8
  if inside then stWrite s k (new.flatMap (fun e => leBytes 4 e.1 ++ leBytes 4 e.2)) else s

/-- Put the unscaled value of an outlier element, rounded into BF16, into the side tensor of its stream; `row` is the place in staging
of the row whose narrow codes it stands beside (R150, log 57). -/
def putOutlier (s : State) (stream row pos : Nat) (y : Dy) : State :=
  { s with gov := { s.gov with outlier := s.gov.outlier.put ((stream * 2 ^ 48 + row) * 64 + pos) (convert 7 y none).code } }
/-- The row of a side tensor that belongs to row `i` of a drain: by its place in staging, or by its global row where it has none. -/
def Drain.sideRow (d : Drain) (i : Nat) : Nat :=
  if d.mode = 1 then stKey d.slab d.cx.part (d.cx.offset + i * d.cx.pitch) else 2 ^ 40 + d.m0 + i
/-- The outlier elements of a drain go to the side tensor, but for masked ones. -/
def Drain.putSide (s : State) (d : Drain) (places : List (Nat × Nat)) : State :=
  let list := outlierList s d.st
  if list.isEmpty then s else
  (places.filter (fun x => !d.rowOff s x.1 && d.outlier s x.2)).foldl (fun u x =>
    putOutlier u d.cx.stream (d.sideRow x.1) (list.findIdx (· == d.n0 + x.2)) (d.value s x.1 x.2).1) s
/-- Convert and deliver the elements of a tile; the answer says whether it was converted twice. -/
def drainTile (s : State) (d : Drain) (t : DrainTile) : State × Bool :=
  let mine := (d.places s).filter (fun x => d.tile x.1 x.2 == t && !d.blockOff s x.1 x.2)
  let plain := mine.filter (fun x => !d.rowOff s x.1 && !d.outlier s x.2)
  let zero := mine.filter (fun x => d.rowOff s x.1 || d.outlier s x.2)
  let key := d.key s
  let es := plain.map (fun x => ({ key := x.1 * 256 + x.2, y := (d.value s x.1 x.2).1,
                                   r := key.map (fun q => r24 (draw q d.cx.tid ((d.m0 + x.1) * 2 ^ 20 + d.n0 + x.2))) } : Elem))
  let sigma := sigmaOf s d.cx.stream
  let out := convertTile d.st.fmt sigma d.st.checked es
  let upd := (pentry s d.passage).cls == 4
  let codes := out.convs.map (fun c => (c.1, c.2.code)) ++ zero.map (fun x => (x.1 * 256 + x.2, zeroCode d.st.fmt))
  let s := d.putSide s mine
  let s := tally s upd d.cx.stream out.stat
  let s := noteJit s d.cx.stream out
  let s := if d.cx.rescale = 0xFF then s else
    out.clips.foldl (fun u k => calibrate u d.cx.rescale (d.channel (k / 256) (k % 256))) s
  let s :=
    if 2 ≤ d.mode then
      (List.range (d.rows s)).foldl (fun u i =>
        let row := codes.filter (fun c => c.1 / 256 == i)
        if row.isEmpty then u else
          d.mergeTop u i (row.map (fun c => (c.2, d.n0 + c.1 % 256)))) s
    else let w := d.width s; codes.foldl (fun u c => d.deliver u w (c.1 / 256) (c.1 % 256) c.2) s
  let s :=
    if d.mode = 1 && d.st.scaled then
      writeSide s d.cx.side (stKey d.slab d.cx.part d.cx.offset) d.cx.pitch (t.brow * ceilDiv (d.cx.pitch * 8 / fmtBits d.st.fmt) 256 + t.bcol) sigma out.delta
    else s
  let s :=
    if d.mode = 0 then
      let v := getVe s d.slab
      let q := mapFirst (fun (e : FtqEntry) => e.op == d.op && e.brow == t.brow && e.bcol == t.bcol)
        (fun e => { e with ready := true, scale := if d.st.scaled then sigma + out.delta else 0 }) v.ftq
      setVe s d.slab { v with ftq := q }
    else s
  (s, out.requant)

/-- The extents that a group or region gets from others whose contents take the place of its own (R98, R104, R111). -/
def extentsOf (l : List (Nat × Nat)) : Nat × Nat := ((l.map (·.1)).foldl max 0, (l.map (·.2)).foldl max 0)
/-- Saturations that an operation meets which belongs to no pass: each is counted, and one `sump_saturate` is raised for the
operation, with k origin 0. DESIGN CHOICE (R86, log 97). -/
def countSaturated (s : State) (k n : Nat) : State :=
  if n = 0 then s else countLoss (raiseSaturate s k 0) k n 0
/-- Counts and events of a whole drain: saturated totals, channels past a table, undeclared consumer, elements out of
bounds, non-finite fused elements. -/
def Drain.note (s : State) (d : Drain) : State :=
  let wrote := (d.places s).filter (fun x => !d.blockOff s x.1 x.2)
  let live := wrote.filter (fun x => !d.rowOff s x.1)
  let g := groupOf s (groupKey d.array d.group)
  let sat := (live.filter (fun x => (leave (getTotal s (totKey d.array (g.rowBase + x.1) x.2))).2)).length
  let bad := wrote.any (fun x =>
    (d.mode == 1 && !inWindow s d.slab d.cx.part (elemAt d.cx.offset d.cx.pitch x.1 x.2 d.st.fmt) d.st.fmt) ||
    (decide (2 ≤ d.mode) && decide (windowBytes s d.slab d.cx.part < d.cx.offset + 64 * x.1 + 64)) ||
    (d.cx.fuse != 0 && !d.rowOff s x.1 && !(d.fused s x.1 x.2).2))
  let nf := if d.cx.fuse = 0 then 0 else
    (live.filter (fun x => let e := d.fused s x.1 x.2; e.2 && nonFinite (streamOf s d.cx.fstream).fmt e.1)).length
  let past := d.cx.rescale != 0xFF && live.any (fun x => decide (rescaleCount s d.cx.rescale ≤ d.channel x.1 x.2))
  let s := noteStream (noteMask s d.cx.mask) d.cx.stream
  let s := countSaturated s (groupKey d.array d.group) sat
  let s := if past then raiseOpen s 3 Ev.rescaleBound else s
  let s := if d.stochastic s && (d.key s).isNone then noteUndeclared s (slabSource d.slab) d.passage 1 d.array 0 else s
  let s := if bad then noteStaging s d.slab d.array d.passage else s
  tallyNonfin s ((pentry s d.passage).cls == 4) (if d.cx.fuse = 0 then 0xFFFF else d.cx.fstream) nf

/-- Deliver tiles in order; the answer says whether one was converted twice. -/
def drainTiles (s : State) (d : Drain) : List DrainTile → State × Bool
  | [] => (s, false)
  | t :: ts => let r := drainTile s d t; let q := drainTiles r.1 d ts; (q.1, r.2 || q.2)

/-- Every tile that a drain touches, masked blocks among them, in row-major order. -/
def Drain.touched (s : State) (d : Drain) : List DrainTile :=
  ((d.places s).map (fun x => d.tile x.1 x.2)).foldl (fun l t => if l.contains t then l else l ++ [t]) []
/-- Reserve an entry of the finished-tile queue for each tile, in row-major order; a masked block pushes none and leaves its place for
its select (R123, R213). -/
def reserveFtq (s : State) (d : Drain) (ts : List DrainTile) : State :=
  let v := getVe s d.slab
  let es := (d.touched s).map (fun t => ({ op := d.op, brow := t.brow, bcol := t.bcol, ready := !ts.contains t, stream := d.cx.stream,
                                           tid := d.cx.tid, fmt := d.st.fmt, scale := 0, codes := [], masked := !ts.contains t } : FtqEntry))
  unitOut (setVe s d.slab { v with ftq := v.ftq ++ es }) 5 ts.length

def Slot.drain (sl : Slot) (s : State) : Drain :=
  Drain.make s sl.sumpArray sl.group sl.passage sl.op (sl.bits 50 43) (sl.bits 42 41) (sl.bits 39 20) (sl.bits 19 0)

/-- The operation is a RUN of a slab that lacks entries of the queue. -/
def lacksTiles (o : Op) (slab : Nat) : Bool :=
  decide (0 < o.need) && (match o.kind with | .run x _ _ _ false _ _ _ _ _ => x == slab | _ => false)
/-- The operation is the RUN of a select. -/
def isSelect (s : State) (o : Op) : Bool :=
  match o.kind with | .run _ _ _ desc _ _ _ _ _ _ => fieldAt (descBytes s o.passage desc) 0 1 == 3 | _ => false
/-- The next `n` places of a queue that a RUN reads, and what it leaves: up to the first that is not `ok`. A select takes the place of a
masked block for the tile that it leaves alone; every other RUN passes over it for an entry behind it (R123, log 123). -/
def takePlaces (ok : FtqEntry → Bool) (sel : Bool) : List FtqEntry → Nat → List FtqEntry × List FtqEntry
  | q, 0 => ([], q)
  | [], _ => ([], [])
  | e :: q, n + 1 =>
    if e.masked && !sel then
      let r := takePlaces ok sel q (n + 1)
      if r.1.isEmpty then ([], e :: q) else r
    else if ok e then let r := takePlaces ok sel q n; (e :: r.1, r.2)
    else ([], e :: q)
/-- A RUN reads what it lacks of the entries that stand ready at the queue's head, which are free from then on, once no RUN accepted
before it lacks one (R213, R214). -/
def feedOne (slab : Nat) (s : State) (o : Op) : State :=
  if (s.psc.ops.find? (fun x => lacksTiles x slab)).map (·.id) != some o.id then s else
  let v := getVe s slab
  let r := takePlaces (·.ready) (isSelect s o) v.ftq o.need
  if r.1.isEmpty then s else
  unitBack (setVe (setOp s o.id (fun o => { o with need := o.need - r.1.length, taken := o.taken ++ r.1 })) slab
    { v with ftq := r.2 }) 5 (r.1.filter (fun e => !e.masked)).length
/-- The RUNs of a slab that lack entries read them in the order in which they were accepted. -/
def feedRun (s : State) (slab : Nat) : State := (s.psc.ops.filter (fun o => lacksTiles o slab)).foldl (feedOne slab) s

/-- A drain: tiles of a checked stream stay invisible until their check (R145). -/
def doDrain (s : State) (sl : Slot) : State :=
  let d := sl.drain s
  let k := sl.sumpKey
  if !(groupOf s k).isOpen then noteGroup s Ev.groupClosed d.array
  else if !d.cx.good 2 then noteContext s sl.passage
  else
    let ts := d.tiles s
    let s := d.note s
    let s := if d.mode = 0 then reserveFtq s d ts else s
    let s := holdGroup s k sl.op
    let kind := fun (left : List DrainTile) => OpKind.drain d.array d.group d.ctxId d.mode (sl.bits 40 40 == 1) d.n0 d.m0 left false
    feedRun (if d.st.checked then addOp s { sl.toOp (kind ts) (d.spans s) with reads := d.fusedSpans s }
      else addOp (drainTiles s d ts).1 (sl.toOp (kind []) [])) d.slab

/-- The check of one tile of a drain of a checked stream (R144, R145). -/
def drainTileCheck (s : State) (op tile : Nat) : State :=
  match findOp s op with
  | some o =>
    match o.kind with
    | .drain a g ctx mode closes n0 m0 left _ =>
      match left[tile]? with
      | some t =>
        let r := drainTile s (Drain.make s a g o.passage op ctx mode n0 m0) t
        let rest := left.eraseIdx tile
        let u := setOpKind r.1 op (.drain a g ctx mode closes n0 m0 rest r.2)
        let u := if rest.isEmpty then setOp u op (fun x => { x with writes := [], reads := [] }) else u
        feedRun u (arraySlab a)
      | none => s
    | _ => s
  | none => s

/-- A drain is done with every element (R95, R101). DESIGN CHOICE: its close flag closes the group also where every block was
masked and the drain did nothing else (R123, log 98). -/
def drainComplete (s : State) (op : Nat) : State :=
  match findOp s op with
  | some o =>
    match o.kind with
    | .drain a g _ _ closes _ _ [] _ =>
      let k := groupKey a g
      let t := finishOp (freeGroup s k op) op
      if closes && !t.isZ64 then closeGroup t k else t
    | _ => s
  | none => s

/-! Spill and reload (R103, R104). -/

/-- Offset of record (i, c) of a spill. -/
def recordAt (cx : Ctx) (size i c : Nat) : Nat := cx.offset + i * cx.pitch + c * size
def recordIn (s : State) (slab : Nat) (cx : Ctx) (size i c : Nat) : Bool :=
  decide (recordAt cx size i c + size ≤ windowBytes s slab cx.part)
def spillSize (binary : Bool) : Nat := if binary then 8 else 20

/-- A spill; the extents of a dW block stay known with its records (R103, R111, log 56). -/
def doSpill (s : State) (sl : Slot) : State :=
  let a := sl.sumpArray
  let slab := arraySlab a
  let k := sl.sumpKey
  let g := groupOf s k
  let cx := ctxOf s sl.passage (sl.bits 50 43)
  let bin := sl.bits 42 42 == 1
  let size := spillSize bin
  if !g.isOpen then noteGroup s Ev.groupClosed a
  else if !cx.good 2 then noteContext s sl.passage
  else
    let places := (List.range g.rowCount).flatMap (fun i => (List.range 256).map (fun c => (i, c)))
    let tot := fun (x : Nat × Nat) => leave (getTotal s (totKey a (g.rowBase + x.1) x.2))
    let sat := (places.filter (fun x => (tot x).2)).length
    let s' := countSaturated s k sat
    let s' := places.foldl (fun u x =>
      if recordIn s slab cx size x.1 x.2 then
        stWrite u (stKey slab cx.part (recordAt cx size x.1 x.2))
          (if bin then leBytes 8 (toBinary64 (totalValue (tot x).1 g.anchor)) else leBytes 20 (lowBits 160 (tot x).1))
      else u) s'
    let s' := if places.any (fun x => !recordIn s slab cx size x.1 x.2) then noteStaging s' slab a sl.passage else s'
    let s' := { s' with sump := { s'.sump with spills := s'.sump.spills.put (stKey slab cx.part cx.offset) (g.wrows, g.wcols) } }
    addOp (holdGroup s' k sl.op) (sl.toOp (.spill a sl.group) [])

/-- Add one record to an element. -/
def reloadElem (s : State) (a grp uid : Nat) (ow bin : Bool) (slab : Nat) (cx : Ctx) (i c : Nat) : State :=
  let k := groupKey a grp
  let g := groupOf s k
  let size := spillSize bin
  let raw := if recordIn s slab cx size i c then
      leNat ((List.range size).map (fun j => stByte s (stKey slab cx.part (recordAt cx size i c) + j))) else 0
  let r := if bin then promote (ofBinary64 raw) g.anchor else ⟨signed 160 raw, false, false⟩
  let key := totKey a (g.rowBase + i) c
  let old := if ow then 0 else getTotal s key
  let s := if r.saturated || r.floorLoss then countPromoted s a grp uid 0 r else s
  putTotal s key k (old + r.n)

def doReload (s : State) (sl : Slot) : State :=
  let a := sl.sumpArray
  let slab := arraySlab a
  let k := sl.sumpKey
  let g := groupOf s k
  let cx := ctxOf s sl.passage (sl.bits 50 43)
  let bin := sl.bits 42 42 == 1
  if !g.isOpen then noteGroup s Ev.groupClosed a
  else if !cx.good 2 then noteContext s sl.passage
  else if !bin && signed 10 (sl.bits 40 31) != g.anchor then noteGroup s Ev.anchorMismatch a
  else
    let places := (List.range g.rowCount).flatMap (fun i => (List.range 256).map (fun c => (i, c)))
    let n := min (g.promotions + 1) (2 ^ 24 - 1)
    let s := if g.promotions = 2 ^ 23 then noteGroup s Ev.promotionLimit a else s
    let w := Tab.get (0, 0) s.sump.spills (stKey slab cx.part cx.offset)
    let e := if s.isZ64 && sl.bits 41 41 == 1 then w else extentsOf [(g.wrows, g.wcols), w]
    let s := setGroup s k { g with promotions := n, wrows := e.1, wcols := e.2 }
    let uid := s.sump.nextUid
    let s := { s with sump := { s.sump with nextUid := uid + 1 } }
    let s := if places.any (fun x => !recordIn s slab cx (spillSize bin) x.1 x.2) then noteStaging s slab a sl.passage else s
    let s := places.foldl (fun u x => reloadElem u a sl.group uid (u.isZ64 && sl.bits 41 41 == 1) bin slab cx x.1 x.2) s
    addOp s (sl.toOp (.reload a sl.group) [])

/-! The combining tree (R97, R98, R123). -/

/-- Ports and links that the participants need are enabled. -/
def routeOk (s : State) (sl : Slot) : Bool :=
  !sl.amask.isEmpty && sl.participants.all (comPort s) &&
    (List.range 8).all (fun x => !(decide (sl.smask.headD 0 ≤ x) && decide (x < sl.smask.getLastD 0)) || comChain s x)

/-- The sum that destination row `i`, column `c` receives. -/
def combineSum (s : State) (keys : List Nat) (i c : Nat) : Int :=
  keys.foldl (fun (n : Int) k =>
    let g := groupOf s k
    if i < g.rowCount then n + getTotal s (totKey (k / 64) (g.rowBase + i) c) else n) 0

/-- Slabs whose combiner an operation uses (R16, R97). -/
def combinesIn (o : Op) (slab : Nat) : Bool :=
  match o.kind with
  | .combine _ keys _ => keys.any (fun k => k / 512 == slab)
  | _ => false
/-- The combiner of a participating slab works on another combine. -/
def combinerBusy (s : State) (sl : Slot) : Bool := sl.smask.any (fun x => s.psc.ops.any (fun o => combinesIn o x))

def doCombine (s : State) (sl : Slot) : State :=
  let keys := sl.combineKeys
  let dk := sl.destKey
  let dst := groupOf s dk
  let fail := fun (code : Nat) => noteGroup s code sl.combineDest
  if combineMasked s sl then s
  else if !(dk :: keys).all (fun k => (groupOf s k).isOpen) then fail Ev.groupClosed
  else if !routeOk s sl then fail Ev.combineRoute
  else if !keys.all (fun k => (groupOf s k).anchor == dst.anchor) then fail Ev.anchorMismatch
  else
    let sums := (List.range dst.rowCount).flatMap (fun i => (List.range 256).map (fun c =>
      (totKey sl.combineDest (dst.rowBase + i) c, combineSum s keys i c)))
    let n := dst.promotions + sumNat (keys.map (fun k => (groupOf s k).promotions))
    let s := noteMask s (ctxOf s sl.passage (sl.bits 31 24)).mask
    let s := if dst.promotions ≤ 2 ^ 23 ∧ 2 ^ 23 < n then noteGroup s Ev.promotionLimit sl.combineDest else s
    let e := extentsOf (keys.map (fun k => ((groupOf s k).wrows, (groupOf s k).wcols)))
    let s := setGroup s dk { dst with promotions := min n (2 ^ 24 - 1), wrows := e.1, wcols := e.2 }
    let s := sums.foldl (fun u x => putTotal u x.1 dk x.2) s
    let s := (dk :: keys).foldl (fun u k => holdGroup u k sl.op) s
    addOp s (sl.toOp (.combine dk keys n) [])

/-! What finishes a spill, a reload and a combine (R193). -/

def spillComplete (s : State) (op : Nat) : State :=
  match findOp s op with
  | some o => match o.kind with
    | .spill a g => finishOp (freeGroup s (groupKey a g) op) op
    | _ => s
  | none => s
def reloadComplete (s : State) (op : Nat) : State :=
  match findOp s op with
  | some o => match o.kind with
    | .reload _ _ => finishOp s op
    | _ => s
  | none => s
def combineComplete (s : State) (op : Nat) : State :=
  match findOp s op with
  | some o => match o.kind with
    | .combine k keys _ => finishOp ((k :: keys).foldl (fun u x => freeGroup u x op) s) op
    | _ => s
  | none => s

/-! Why a sump slot cannot be accepted (R94, R95, R194, R204). -/

def firstSome {α : Type} : List (Option α) → Option α
  | [] => none
  | some x :: _ => some x
  | none :: xs => firstSome xs

/-- Chunks issued ahead have not all promoted: in flight, or kept by a stop of the array (R94, R336). -/
def chunksAhead (s : State) (k : Nat) : Bool :=
  let g := groupOf s k
  g.isOpen && (decide (0 < g.inflight) || (getArray s (k / 64)).saved.saved.any (fun c => c.target == k % 64))
def groupHold (s : State) (k p : Nat) (waits : Bool) : Option Nat :=
  if shadowHold s k p then some 13
  else if (busyHold s k).isSome then busyHold s k
  else if waits && chunksAhead s k then some 5
  else none

/-- Chunks in flight come before a reload wherever one of the two overwrites (R92, R94, R105). -/
def reloadWaits (s : State) (sl : Slot) : Bool :=
  let a := sl.sumpArray
  (s.sump.chunks ++ (getArray s a).saved.saved).any (fun c =>
    c.id.array == a && c.target == sl.group && decide (c.op < sl.op) && sl.reloadAfter s c)
/-- A sump slot of an issued bundle acts: every chunk that the bundle's bursts issued ahead of it has promoted, no operation of a slot
ahead of it holds its groups, and the combiners it needs are free (R16, R94, R95). -/
def sumpReady (s : State) (sl : Slot) : Bool :=
  let keys := if sl.opcode = 7 then sl.orderKeys s else [sl.sumpKey]
  (sl.orderKeys s).all (fun k => !chunksAhead s k) && keys.all (fun k => (groupOf s k).busy.isEmpty) &&
    !(sl.opcode == 6 && reloadWaits s sl) && !(sl.opcode == 7 && !combineMasked s sl && combinerBusy s sl)

/-- Why the sump slot at the head of the accepted ones waits: chunks ahead of it, a busy group, or a combiner (R94, R95, R106). -/
def headStall (s : State) : Option Nat :=
  match s.psc.accepted with
  | sl :: _ =>
    if sl.index < 88 ∨ 96 ≤ sl.index then none
    else if (sl.orderKeys s).any (chunksAhead s) || (sl.opcode == 6 && reloadWaits s sl) then some 5
    else match firstSome ((if sl.opcode = 7 then sl.orderKeys s else [sl.sumpKey]).map (busyHold s)) with
      | some c => some c
      | none => if sl.opcode == 7 && !combineMasked s sl && combinerBusy s sl then some 6 else none
  | [] => none

def sumpHold (s : State) (sl : Slot) : Option Nat :=
  let op := sl.opcode
  if op = 0 then none
  else if op = 1 then groupHold s sl.sumpKey sl.passage false
  else if op = 6 then
    (match groupHold s sl.sumpKey sl.passage false with
     | some c => some c
     | none => if reloadWaits s sl then some 5 else none)
  else if op = 7 then
    if combineMasked s sl then none else
    let keys := sl.destKey :: sl.combineKeys
    match firstSome (keys.map (fun k => groupHold s k sl.passage true)) with
    | some c => some c
    | none => if combinerBusy s sl then some 6 else none
  else
    match groupHold s sl.sumpKey sl.passage true with
    | some c => some c
    | none =>
      if op = 4 ∧ sl.bits 42 41 = 0 then
        let d := sl.drain s
        if (groupOf s sl.sumpKey).isOpen && d.cx.good 2 &&
          decide (16 < (getVe s d.slab).entries.length + (d.tiles s).length) then some 8 else none
      else none

/-! Meanings. -/

/-- The sump slot at the head of the queue acts once it is ready (log 9). -/
def sumpAct (s : State) (slab op : Nat) (f : State → Slot → State) : Result :=
  match takeSlot s (fun sl => sl.sumpSlot slab op && sumpReady s sl) with
  | some (sl, t) => .next (f t sl)
  | none => .next s

def execOpenGroup (slab : Fin 8) (s : State) : Result := sumpAct s slab.val 1 doOpen
def execClose (slab : Fin 8) (s : State) : Result := sumpAct s slab.val 2 doClose
def execAnchor (slab : Fin 8) (s : State) : Result := sumpAct s slab.val 3 doAnchor
def execDrain (slab : Fin 8) (s : State) : Result := sumpAct s slab.val 4 doDrain
def execSpill (slab : Fin 8) (s : State) : Result := sumpAct s slab.val 5 doSpill
def execReload (slab : Fin 8) (s : State) : Result := sumpAct s slab.val 6 doReload
def execCombine (slab : Fin 8) (s : State) : Result := sumpAct s slab.val 7 doCombine
def execDrainTileCheck (op tile : Nat) (s : State) : Result := .next (drainTileCheck s op tile)
def execDrainComplete (op : Nat) (s : State) : Result := .next (drainComplete s op)
def execSpillComplete (op : Nat) (s : State) : Result := .next (spillComplete s op)
def execReloadComplete (op : Nat) (s : State) : Result := .next (reloadComplete s op)
def execCombineComplete (op : Nat) (s : State) : Result := .next (combineComplete s op)

end Sys2Proof.Machine
end

