-- ==== Sys2Proof/Machine/Vector.lean ====
section
/-! DEFINITION. The vector engine: descriptors, element programs, reductions, selection with error feedback, wide adds and
converts, summaries (R212 to R230). -/

namespace Sys2Proof.Machine

/-! Descriptors (R215, R217). -/

/-- A RUN descriptor. -/
structure VeDesc where
  kind   : Nat
  trans  : Bool
  summ   : Bool
  round  : Nat
  plen   : Nat
  regs   : Nat
  ext    : List Nat
  prog   : Nat
  mul    : List Int
  ins    : List Nat
  outs   : List Nat
  bcs    : List Nat
  sbank  : Nat
  sdest  : Nat
  smask  : Nat
  param  : Nat
  thresh : Nat
  portR  : Nat
  portK  : Nat
  portU  : Nat
  reserved : Bool
  deriving DecidableEq, Repr

def VeDesc.ofBytes (b : List Byte) : VeDesc :=
  let k := fieldAt b 0 1
  let f := fieldAt b 1 1
  let p := fieldAt b 0x28 4
  let hasProg := k == 1 || k == 2
  { kind := k, trans := bitAt f 0, summ := bitAt f 1, round := fld f 3 2, plen := fieldAt b 2 1, regs := fld (fieldAt b 3 1) 5 0,
    ext := (List.range 5).map (fun i => fieldAt b (4 + 2 * i) 2), prog := fieldAt b 0xE 2,
    mul := (List.range 3).map (fun i => signed 32 (fieldAt b (0x10 + 4 * i) 4)),
    ins := (List.range 3).map (fun i => fieldAt b (0x1C + i) 1), outs := [fieldAt b 0x20 1, fieldAt b 0x21 1],
    bcs := (List.range 3).map (fun i => fld (fieldAt b (0x22 + i) 1) 4 0), sbank := fieldAt b 0x25 1,
    sdest := fieldAt b 0x26 1, smask := fld (fieldAt b 0x27 1) 5 0, param := p, thresh := fieldAt b 0x2C 4,
    portR := fieldAt b 0x30 1, portK := fieldAt b 0x31 1, portU := fieldAt b 0x32 1,
    reserved := decide (16 ≤ f) || (!hasProg && fieldAt b 2 1 != 0) || decide (64 ≤ fieldAt b 3 1) || fieldAt b 0x1F 1 != 0 ||
      (List.range 3).any (fun i => decide (32 ≤ fieldAt b (0x22 + i) 1)) || decide (64 ≤ fieldAt b 0x27 1) ||
      !allZero (slice b 0x33 0x40) ||
      (if k = 2 then decide (32 ≤ p) else if k = 3 then decide (2 ^ 17 ≤ p) else if k = 4 then decide (2 ^ 11 ≤ p)
       else if k = 5 then decide (2 ^ 10 ≤ p) else p != 0) }

def VeDesc.axis (d : VeDesc) : Nat := d.param % 4
def VeDesc.redOp (d : VeDesc) : Nat := fld d.param 4 2
def VeDesc.anchor (d : VeDesc) : Int := signed 10 (d.param % 1024)
def VeDesc.dense (d : VeDesc) : Bool := bitAt d.param 10
def VeDesc.ftq (d : VeDesc) : Bool := d.ins.headD 0xFF == 0xFE
def VeDesc.cols (d : VeDesc) : Nat := d.ext.headD 1
def VeDesc.rows (d : VeDesc) : Nat := product_ (d.ext.drop 1)
def popcount (n w : Nat) : Nat := ((List.range w).filter (fun i => bitAt n i)).length

/-- The op words of a descriptor's program. -/
def progWords (s : State) (p : Nat) (d : VeDesc) : List Nat :=
  (List.range (16 * ceilDiv d.plen 16)).map (fun i => fieldAt (descBytes s p (d.prog + i / 16)) (4 * (i % 16)) 4)
def srcOk (x : Nat) : Bool := decide (x < 12) || decide (16 ≤ x)
/-- An op word holds no reserved value and its unused sources are 0 (R219). -/
def opWordOk (w : Nat) : Bool :=
  let n := veOpSources (fld w 31 26)
  veOpDefined (fld w 31 26) && fld w 7 0 == 0 && srcOk (fld w 22 18) && srcOk (fld w 17 13) && srcOk (fld w 12 8) &&
    (decide (0 < n) || fld w 22 18 == 0) && (decide (1 < n) || fld w 17 13 == 0) && (decide (2 < n) || fld w 12 8 == 0)

/-- The tile registers of the groups a mask names. -/
def maskRegs (s : State) (slab mask : Nat) : Nat :=
  (List.range 4).foldl (fun r g => if bitAt mask g then r ||| laneRegs s slab g else r) 0

/-- The checks of R217 on a descriptor of kinds 1 to 5. -/
def VeDesc.ok (s : State) (slab p mask : Nat) (d : VeDesc) : Bool :=
  let e := pentry s p
  let words := progWords s p d
  let staged := (d.ins.filter (fun i => decide (i < 0xFE))).length
  !d.reserved && decide (1 ≤ d.kind) && decide (d.kind ≤ 5) && d.round != 3 && decide (d.plen ≤ 32) &&
    (d.kind != 1 || decide (1 ≤ d.plen)) && d.ext.all (fun x => decide (1 ≤ x)) &&
    (d.ins.drop 1).all (· != 0xFE) && decide (d.sbank % 64 ≤ 48) &&
    (!d.summ || decide (d.sdest % 64 + popcount d.smask 6 ≤ 64)) &&
    (d.plen == 0 || (decide (d.prog + ceilDiv d.plen 16 ≤ e.ndesc) && (words.take d.plen).all opWordOk &&
      (words.drop d.plen).all (· == 0))) &&
    (d.kind != 2 || (d.axis != 3 && decide (d.redOp ≤ 4))) && (d.kind != 3 || (decide (1 ≤ d.param) && decide (d.param ≤ 65536))) &&
    decide (mask < 2 ^ laneGroups s slab) && d.regs &&& maskRegs s slab mask == d.regs &&
    decide (staged + 1 ≤ popcount d.regs 6) && (d.kind == 2 || d.outs.headD 0xFF != 0xFF) &&
    !(d.kind == 4 && !d.dense && d.ftq) && decide (product_ d.ext ≤ 2 ^ 40)

/-- Contexts the descriptor names keep R192. -/
def VeDesc.ctxsOk (s : State) (p : Nat) (d : VeDesc) : Bool :=
  let good := fun (i : Nat) => decide (i < (pentry s p).nctx) && (ctxOf s p i).good 2
  d.ins.all (fun i => decide (0xFE ≤ i) || good i) && d.outs.all (fun i => i == 0xFF || good i)

/-! A RUN at work. -/

/-- What a RUN needs: where it runs, its descriptor, the scalars as sampled (R225), and the queue entries it has read (R213). -/
structure VeRun where
  slab    : Nat
  passage : Nat
  index   : Nat
  mask    : Nat
  d       : VeDesc
  scalars : List Word
  ftq     : List FtqEntry
  deriving DecidableEq, Repr

def VeRun.group (r : VeRun) : Nat := ((List.range 4).find? (fun g => bitAt r.mask g)).getD 0
def VeRun.key (s : State) (r : VeRun) (port cls : Nat) : Option Quad := consumerKey s 2 (4 * r.slab + r.group) port cls
def VeRun.ctx? (s : State) (r : VeRun) (i : Nat) : Option Ctx := if 0xFE ≤ i then none else some (ctxOf s r.passage i)
/-- Output `n`: only `0xFF` names none (R215). -/
def VeRun.out (s : State) (r : VeRun) (n : Nat) : Option Ctx :=
  let i := r.d.outs.getD n 0xFF
  if i = 0xFF then none else some (ctxOf s r.passage i)
/-- The tensor id of the RUN's draws: out0's. DESIGN CHOICE: a reduce that names no out0 draws with tensor id 0 (R49, R221, log 127). -/
def VeRun.tid (s : State) (r : VeRun) : Nat := match r.out s 0 with | some c => c.tid | none => 0
def VeRun.upd (s : State) (r : VeRun) : Bool := (pentry s r.passage).cls == 4

/-- Indices of logical element `e`; the row multiple of R216 that they give. -/
def VeDesc.indices (d : VeDesc) (e bc : Nat) : List Nat :=
  ((digits d.ext e).zip (List.range 5)).map (fun x => if bitAt bc x.2 then 0 else x.1)
def VeDesc.rowOf (d : VeDesc) (ix : List Nat) : Int :=
  (ix.getD 1 0 : Int) + (((ix.drop 2).zip d.mul).map (fun x => (x.1 : Int) * x.2)).foldl (· + ·) 0
/-- The row of the two-dimensional shape that indices give (R216). -/
def VeDesc.flatRow (d : VeDesc) (ix : List Nat) : Nat :=
  (((ix.drop 1).zip (List.range 4)).map (fun x => x.1 * product_ ((d.ext.drop 1).take x.2))).foldl (· + ·) 0
/-- The nibble place of an element in a context; none where it lies outside the partition. -/
def placeIn (s : State) (slab : Nat) (c : Ctx) (row : Int) (col fmt : Nat) : Option Nat :=
  let nib := 2 * ((c.offset : Int) + row * c.pitch) + col * fmtNibs fmt
  if nib < 0 ∨ !inWindow s slab c.part nib.toNat fmt then none else some nib.toNat

/-- A read element: its FP32 code, and whether it was out of bounds, non-finite, or had a reserved scale. -/
structure ReadOut where
  code   : Nat
  out    : Bool
  nonfin : Bool
  badTab : Bool
  deriving DecidableEq, Repr

/-- Read an element of a staging context, scaled (R141, R218). DESIGN CHOICE: a scaled value beyond the range of FP32 is read as the
largest finite value with its sign, and counts nowhere (log 121). -/
def readCtx (s : State) (slab : Nat) (c : Ctx) (row : Int) (col : Nat) : ReadOut :=
  let f := (streamOf s c.stream).fmt
  match placeIn s slab c row col f with
  | none => ⟨0, true, false, false⟩
  | some nib =>
    let x := readElem s slab c.part nib f
    let sc := nibScale s c.stream c.side slab c.part c.pitch c.offset nib
    ⟨toF32 (Dy.scale (decode f x) (-sc.1)), false, nonFinite f x, sc.2⟩

/-- Tiles of the queue that a RUN with the queue's head as input reads: one for each tile of its shape. -/
def VeDesc.ftqTiles (d : VeDesc) : Nat := ceilDiv d.cols 256 * ceilDiv d.rows 256
/-- An element of a queue entry as exact value; no element there reads as zero. -/
def FtqEntry.value (t : FtqEntry) (r c : Nat) : Dy :=
  match List.lookup (r * 256 + c) t.codes with
  | some x => Dy.scale (decode t.fmt x) (-t.scale)
  | none => Dy.zero
def VeRun.ftqValue (r : VeRun) (row col : Nat) : Dy :=
  match r.ftq[row / 256 * ceilDiv r.d.cols 256 + col / 256]? with
  | some t => t.value (row % 256) (col % 256)
  | none => Dy.zero

/-- Input `n` of element `e`. -/
def VeRun.input (s : State) (r : VeRun) (n e : Nat) : ReadOut :=
  let i := r.d.ins.getD n 0xFF
  let ix := r.d.indices e (r.d.bcs.getD n 0)
  if i = 0xFE then ⟨toF32 (r.ftqValue (r.d.flatRow ix) (ix.headD 0)), false, false, false⟩
  else match r.ctx? s i with
    | some c => readCtx s r.slab c (r.d.rowOf ix) (ix.headD 0)
    | none => ⟨0, false, false, false⟩

/-! Element programs (R219 to R221). -/

/-- Temporaries and counts while a program runs. -/
structure ProgState where
  temps : List Nat
  sat   : Nat
  deriving DecidableEq, Repr

def progSource (r : VeRun) (ins : List Nat) (t : ProgState) (c : Nat) : Nat :=
  if c < 8 then t.temps.getD c 0 else if c < 11 then ins.getD (c - 8) 0 else if c < 16 then 0
  else toF32 (ofF32 (r.scalars.getD (c - 16) 0).toNat)

/-- One op of element `e`. -/
def progOp (r : VeRun) (ku kk : Option Quad) (tid e : Nat) (ins : List Nat) (t : ProgState) (w : Nat) : ProgState :=
  let src := fun (hi lo : Nat) => ofF32 (progSource r ins t (fld w hi lo))
  let q := veOp (fld w 31 26) (src 22 18) (src 17 13) (src 12 8) (ku.map (fun k => draw k tid e)) (kk.map (fun k => draw k tid e))
  { temps := t.temps.set (fld w 25 23) q.code, sat := t.sat + (if q.sat then 1 else 0) + (if q.dom then 1 else 0) }
def runProg (r : VeRun) (ku kk : Option Quad) (tid e : Nat) (ws ins : List Nat) : ProgState :=
  ws.foldl (progOp r ku kk tid e ins) { temps := List.replicate 8 0, sat := 0 }

/-- The value of every element in order: FP32 code, and saturations with domain cases. -/
def elemValues (s : State) (r : VeRun) (ins : List (List ReadOut)) : List Nat × Nat :=
  let ws := (progWords s r.passage r.d).take r.d.plen
  let ku := r.key s r.d.portU 5
  let kk := r.key s r.d.portK 4
  let tid := r.tid s
  let out := ((List.range ins.length).zip ins).map (fun ei =>
    let codes := ei.2.map (·.code)
    if r.d.plen = 0 then (codes.headD 0, 0)
    else let p := runProg r ku kk tid ei.1 ws codes; (p.temps.headD 0, p.sat))
  (out.map (·.1), sumNat (out.map (·.2)))

/-- The program draws through a port that is undeclared. -/
def progUndeclared (s : State) (r : VeRun) : Option Nat :=
  let ws := ((progWords s r.passage r.d).take r.d.plen).map (fun w => fld w 31 26)
  if ws.contains 0x1D && (r.key s r.d.portU 5).isNone then some r.d.portU
  else if ws.contains 0x1E && (r.key s r.d.portK 4).isNone then some r.d.portK else none

/-! Outputs (R216, R218). -/

/-- One result to convert: row of its address, column, element index, two-dimensional position, exact value, and
whether it ends an odd row of the output and of its transposed copy (R26). -/
structure OutElem where
  row : Int
  col : Nat
  e   : Nat
  r2  : Nat
  y   : Dy
  pad : Bool
  padT : Bool
  deriving DecidableEq, Repr

/-- The rounding of outputs into a stream is stochastic. -/
def VeRun.stochastic (s : State) (r : VeRun) (st : Stream) : Bool :=
  r.d.round == 1 || (r.d.round == 2 && st.role == 2 && rungRound s st 1)
def VeRun.roundKey (s : State) (r : VeRun) (st : Stream) : Option Quad :=
  if r.stochastic s st then r.key s r.d.portR 2 else none

/-- Stored tile of a place of a context: row, column, and the tile's index in the side table. -/
def storedTile (c : Ctx) (fmt nib : Nat) : Nat × Nat :=
  if c.pitch = 0 then (0, (nib - 2 * c.offset) / fmtNibs fmt / 256) else
  let o := nib - 2 * c.offset
  (o / (2 * c.pitch) / 256, o % (2 * c.pitch) / fmtNibs fmt / 256)
def tilesPerRow (c : Ctx) (fmt : Nat) : Nat := ceilDiv (c.pitch * 8 / fmtBits fmt) 256

/-- Write the codes of a tile to out0, and to the transposed copy, element by element; what an overlap leaves of them is settled by
`freeClash`. -/
def putCodes (s : State) (r : VeRun) (c : Ctx) (fmt : Nat) (es : List (OutElem × Nat)) : State :=
  es.foldl (fun u x =>
    let u := match placeIn u r.slab c x.1.row x.1.col fmt with
      | some nib => writeElem u r.slab c.part nib fmt x.2 x.1.pad
      | none => u
    match if r.d.trans then r.out u 1 else none with
    | some t => match placeIn u r.slab t (x.1.col : Int) x.1.r2 fmt with
      | some nib => writeElem u r.slab t.part nib fmt x.2 x.1.padT
      | none => u
    | none => u) s

/-- Convert one stored tile of out0 and write it (R141, R144, R218). Elements of outlier channels are written as zero, count nowhere,
and go to the stream's side tensor (R150). -/
def outTile (s : State) (r : VeRun) (c : Ctx) (tile : Nat × Nat) (all : List OutElem) : State :=
  let st := streamOf s c.stream
  let list := outlierList s st
  let es := all.filter (fun x => !list.contains x.col)
  let apart := all.filter (fun x => list.contains x.col)
  let key := r.roundKey s st
  let sigma := sigmaOf s c.stream
  let elems := ((List.range es.length).zip es).map (fun x =>
    ({ key := x.1, y := x.2.y, r := key.map (fun q => r24 (draw q c.tid x.2.e)) } : Elem))
  let out := convertTile st.fmt sigma st.checked elems
  let s := noteJit (tally s (r.upd s) c.stream out.stat) c.stream out
  let s := apart.foldl (fun u x => putOutlier u c.stream (stKey r.slab c.part ((c.offset : Int) + x.row * c.pitch).toNat) (list.findIdx (· == x.col)) x.y) s
  let s := putCodes s r c st.fmt (es.zip (out.convs.map (fun v => v.2.code)) ++ apart.map (fun x => (x, zeroCode st.fmt)))
  if !st.scaled then s else
  let s := writeSide s c.side (stKey r.slab c.part c.offset) c.pitch (tile.1 * tilesPerRow c st.fmt + tile.2) sigma out.delta
  match if r.d.trans then r.out s 1 else none with
  | some t => writeSide s t.side (stKey r.slab t.part t.offset) t.pitch (tile.2 * tilesPerRow t st.fmt + tile.1) sigma out.delta
  | none => s

/-- Convert and write results: a write outside its partition, to out0 or to the transposed copy, is suppressed. The answer says whether
one was (R217). -/
def writeOut (s : State) (r : VeRun) (es : List OutElem) : State × Bool :=
  match r.out s 0 with
  | none => (s, false)
  | some c =>
    let st := streamOf s c.stream
    let s := noteStream s c.stream
    let s := if r.stochastic s st && (r.roundKey s st).isNone then
        noteUndeclared s (slabSource r.slab) r.passage 2 (4 * r.slab + r.group) r.d.portR else s
    let at_ := es.map (fun e => (e, storedTile c st.fmt (2 * ((c.offset : Int) + e.row * c.pitch) + e.col * fmtNibs st.fmt).toNat))
    let tiles := at_.foldl (fun (l : List (Nat × Nat)) x => if l.contains x.2 then l else l ++ [x.2]) []
    let t := tiles.foldl (fun u t => outTile u r c t ((at_.filter (fun x => x.2 == t)).map (·.1))) s
    (t, es.any (fun e => (placeIn s r.slab c e.row e.col st.fmt).isNone ||
      (match if r.d.trans then r.out s 1 else none with
       | some o => (placeIn s r.slab o (e.col : Int) e.r2 st.fmt).isNone
       | none => false)))

/-! Kinds. -/

/-- What a RUN leaves: result values for its summary, saturations, and whether an access was out of bounds. -/
structure RunOut where
  st   : State
  vals : List Nat
  sat  : Nat
  out  : Bool

/-- All inputs of every element, with the notes they make: non-finite counts and reserved scales. -/
def readAll (s : State) (r : VeRun) : List (List ReadOut) :=
  (List.range (product_ r.d.ext)).map (fun e => (List.range 3).map (fun n => r.input s n e))
def noteReads (s : State) (r : VeRun) (ins : List (List ReadOut)) : State :=
  (List.range 3).foldl (fun u n =>
    match r.ctx? u (r.d.ins.getD n 0xFF) with
    | none => u
    | some c =>
      let mine := ins.filterMap (fun l => l[n]?)
      let u := tallyNonfin (noteStream u c.stream) (r.upd u) c.stream (mine.filter (·.nonfin)).length
      if mine.any (·.badTab) then reservedRead u (slabSource r.slab) c.side else u) s
def anyOut (ins : List (List ReadOut)) : Bool := ins.any (fun l => l.any (·.out))

def outOf (d : VeDesc) (e : Nat) (y : Dy) : OutElem :=
  let ix := d.indices e 0
  { row := d.rowOf ix, col := ix.headD 0, e := e, r2 := e / d.cols, y := y, pad := endsOdd d.cols (ix.headD 0),
    padT := endsOdd d.rows (e / d.cols) }

def notePorts (s : State) (r : VeRun) : State :=
  match progUndeclared s r with
  | some port => noteUndeclared s (slabSource r.slab) r.passage 2 (4 * r.slab + r.group) port
  | none => s

/-- A map reads every input before it writes an output, so one in place finds its inputs whole (R218). -/
def runMap (s : State) (r : VeRun) : RunOut :=
  let ins := readAll s r
  let v := elemValues s r ins
  let s := notePorts (noteReads s r ins) r
  let w := writeOut s r (((List.range v.1.length).zip v.1).map (fun x => outOf r.d x.1 (ofF32 x.2)))
  ⟨w.1, v.1, v.2, w.2 || anyOut ins⟩

/-- The lists a reduction reduces (R224). -/
def reduceLists (d : VeDesc) (xs : List Nat) : List (List Nat) :=
  if d.axis = 0 then (List.range d.rows).map (fun i => slice xs (i * d.cols) (i * d.cols + d.cols))
  else if d.axis = 1 then (List.range d.cols).map (fun c => (List.range d.rows).map (fun i => xs.getD (i * d.cols + c) 0))
  else [xs]
/-- Where result `i` of a reduction goes. -/
def reduceOut (d : VeDesc) (i : Nat) (y : Dy) : OutElem :=
  if d.axis = 0 then { outOf d (i * d.cols) y with e := i, col := 0, pad := true }
  else if d.axis = 1 then { row := 0, col := i, e := i, r2 := 0, y := y, pad := endsOdd d.cols i, padT := true }
  else { row := 0, col := 0, e := 0, r2 := 0, y := y, pad := true, padT := true }

def runReduce (s : State) (r : VeRun) : RunOut :=
  let ins := readAll s r
  let v := elemValues s r ins
  let s := notePorts (noteReads s r ins) r
  let red := (reduceLists r.d v.1).map (reduceOp r.d.redOp)
  let vals := red.map (·.1)
  let w := writeOut s r (((List.range vals.length).zip vals).map (fun x => reduceOut r.d x.1 (ofF32 x.2)))
  ⟨w.1, vals, v.2 + sumNat (red.map (·.2)), w.2 || anyOut ins⟩

/-! Selection (R227, R228). -/

/-- Order of selection: larger magnitude, then lower index. -/
def selBefore (a b : Nat × Nat) : Bool :=
  decide (b.2 % 2 ^ 31 < a.2 % 2 ^ 31) || (a.2 % 2 ^ 31 == b.2 % 2 ^ 31 && decide (a.1 < b.1))
/-- Merge sort by `selBefore`, on runs of doubling length. -/
def selMerge : Nat → List (Nat × Nat) → List (Nat × Nat) → List (Nat × Nat)
  | 0, _, _ => []
  | _, [], b => b
  | _, a, [] => a
  | n + 1, x :: xs, y :: ys => if selBefore y x then y :: selMerge n (x :: xs) ys else x :: selMerge n xs (y :: ys)
def selPairs : List (List (Nat × Nat)) → List (List (Nat × Nat))
  | a :: b :: t => selMerge (a.length + b.length) a b :: selPairs t
  | l => l
def selSort (xs : List (Nat × Nat)) : List (Nat × Nat) :=
  ((List.range (log2Up xs.length)).foldl (fun l _ => selPairs l) (xs.map (fun x => [x]))).headD []

/-- Block coordinates of a tile: those of its queue entry, else its place in the shape (R121, log 24). -/
def VeRun.block (r : VeRun) (ti tj : Nat) : Nat × Nat :=
  match if r.d.ftq then r.ftq[ti * ceilDiv r.d.cols 256 + tj]? else none with
  | some t => (t.brow, t.bcol)
  | none => (ti, tj)

/-- A code of a selection list in its bytes (R228). -/
def listCode (fmt code : Nat) : List Byte := leBytes (if fmtBits fmt ≤ 8 then 1 else fmtBits fmt / 8) code

/-- Write bytes of a window, dropping those beyond it; the answer says whether some were. -/
def writeBytesIn (s : State) (slab part off : Nat) (bs : List Byte) : State × Bool :=
  let room := windowBytes s slab part - off
  (stWrite s (stKey slab part off) (bs.take room), decide (room < bs.length))

/-- A tile of a select is masked: by the mask, or by that of the drain that pushed no entry for it (R123). -/
def VeRun.tileOff (s : State) (r : VeRun) (mask ti tj : Nat) : Bool :=
  let blk := r.block ti tj
  blockMasked s mask blk.1 blk.2 ||
    (match if r.d.ftq then r.ftq[ti * ceilDiv r.d.cols 256 + tj]? else none with | some t => t.masked | none => false)
/-- Places of a tile of a select that are eligible: within the shape, in no masked row, and, of a queue entry, with an element; which
positions a tile that is still to come carries is not known (R111, R213, R227, log 120). -/
def VeRun.eligible (s : State) (r : VeRun) (mask ti tj : Nat) : List Nat :=
  let blk := r.block ti tj
  let entry := if r.d.ftq then r.ftq[ti * ceilDiv r.d.cols 256 + tj]? else none
  (List.range 65536).filter (fun x =>
    decide (256 * ti + x / 256 < r.d.rows) && decide (256 * tj + x % 256 < r.d.cols) &&
      ((r.d.ftq && entry.isNone) || !rowMasked s mask (256 * blk.1 + x / 256)) &&
      (match entry with | some t => !t.ready || t.codes.any (fun c => c.1 == x) | none => true))
/-- One tile of a select: what it leaves, and the element index of each of its values. DESIGN CHOICE: its mask is that of out0's context
(R121, log 119). -/
def selectTile (s : State) (r : VeRun) (ti tj : Nat) : RunOut × List Nat :=
  match r.out s 0 with
  | none => (⟨s, [], 0, false⟩, [])
  | some c =>
    let mask := c.mask
    if r.tileOff s mask ti tj then (⟨noteMask s mask, [], 0, false⟩, []) else
    let places := r.eligible s mask ti tj
    let elem := fun (x : Nat) => (256 * ti + x / 256) * r.d.cols + 256 * tj + x % 256
    let ins := places.map (fun x => [r.input s 0 (elem x), r.input s 1 (elem x)])
    let vs := (places.zip ins).map (fun x =>
      (x.1, add32 ((x.2.map (·.code)).getD 0 0) ((x.2.map (·.code)).getD 1 0)))
    let sel := ((selSort (vs.map (fun x => (x.1, x.2.code)))).take r.d.param).map (·.1)
    let st := streamOf s c.stream
    let sigma := sigmaOf s c.stream
    let key := r.roundKey s st
    let s := noteReads (noteMask (noteStream s c.stream) mask) r ins
    let s := if r.stochastic s st && key.isNone then
        noteUndeclared s (slabSource r.slab) r.passage 2 (4 * r.slab + r.group) r.d.portR else s
    let conv : List (Nat × Nat × Conv) := (vs.filter (fun x => sel.contains x.1)).map (fun x =>
      (x.1, x.2.code, convert st.fmt (Dy.scale (ofF32 x.2.code) sigma) (key.map (fun q => r24 (draw q c.tid (elem x.1))))))
    let stat := conv.foldl (fun (t : StreamStat) (x : Nat × Nat × Conv) => t.conv st.fmt (ofF32 x.2.1) (Dy.scale (ofF32 x.2.1) sigma) x.2.2) StreamStat.zero
    let s := tally s (r.upd s) c.stream stat
    let bytes := leBytes 4 conv.length ++ conv.flatMap (fun x => leBytes 2 x.1 ++ listCode st.fmt x.2.2.code)
    let w := writeBytesIn s r.slab c.part (c.offset + (ti * ceilDiv r.d.cols 256 + tj) * c.pitch) bytes
    let left := fun (x : Nat) (v : Nat) => match conv.find? (fun (y : Nat × Nat × Conv) => y.1 == x) with
      | some y => (rnd32 (Dy.sub (ofF32 v) (Dy.scale (decode st.fmt y.2.2.code) (-sigma)))).code
      | none => v
    let put := match r.out w.1 1 with
      | none => (w.1, false)
      | some o => vs.foldl (fun (u : State × Bool) (x : Nat × OpRes) =>
          let q := outOf r.d (elem x.1) Dy.zero
          match placeIn u.1 r.slab o q.row q.col 9 with
          | some nib => (writeElem u.1 r.slab o.part nib 9 (left x.1 x.2.code) false, u.2)
          | none => (u.1, true)) (w.1, false)
    (⟨put.1, vs.map (fun x => x.2.code), (vs.filter (fun x => x.2.sat)).length, w.2 || put.2 || anyOut ins⟩,
      vs.map (fun x => elem x.1))

/-- Its values stand in ascending element index, as the summary takes them (R226). -/
def runSelect (s : State) (r : VeRun) : RunOut :=
  let q := ((List.range (ceilDiv r.d.rows 256)).flatMap (fun i => (List.range (ceilDiv r.d.cols 256)).map (fun j => (i, j)))).foldl
    (fun (q : RunOut × List (Nat × Nat)) t =>
      let x := selectTile q.1.st r t.1 t.2
      (⟨x.1.st, [], q.1.sat + x.1.sat, q.1.out || x.1.out⟩, q.2 ++ x.2.zip x.1.vals)) (⟨s, [], 0, false⟩, [])
  { q.1 with vals := (List.range (product_ r.d.ext)).filterMap (fun e => List.lookup e q.2) }

/-! Wide mode (R229, R230). -/

def windowAt (c : Ctx) (row col : Nat) : Nat := c.offset + row * c.pitch + 24 * col
def windowIn (s : State) (slab : Nat) (c : Ctx) (row col : Nat) : Bool :=
  decide (windowAt c row col + 24 ≤ windowBytes s slab c.part)
def readWindow (s : State) (slab : Nat) (c : Ctx) (row col : Nat) : Int :=
  signed 192 (leNat ((List.range 24).map (fun i => stByte s (stKey slab c.part (windowAt c row col) + i))))

/-- Losses of an operation on a reduction window: counted, with one `sump_saturate` for the operation if it saturated. DESIGN CHOICE: a
window has neither array nor group nor pass, so the payload is open (R85, R86, R229, R230, log 97). -/
def windowLoss (s : State) (slab floor sat : Nat) : State :=
  let s := countLife (countLife s 10 floor) 11 sat
  if sat = 0 then s else raiseOpen s (slabSource slab) Ev.sumpSaturate
/-- Add values into window elements, exactly, after promotion at the anchor. -/
def addWindow (s : State) (r : VeRun) (c : Ctx) (xs : List (Nat × Nat × Dy)) (bad : Bool) : RunOut :=
  let ps := (xs.filter (fun x => windowIn s r.slab c x.1 x.2.1)).map (fun x => (x.1, x.2.1, promote x.2.2 r.d.anchor))
  let t := ps.foldl (fun u x => stWrite u (stKey r.slab c.part (windowAt c x.1 x.2.1))
    (leBytes 24 (lowBits 192 (readWindow u r.slab c x.1 x.2.1 + x.2.2.n)))) s
  ⟨windowLoss t r.slab (ps.filter (·.2.2.floorLoss)).length (ps.filter (·.2.2.saturated)).length, [], 0,
    bad || decide (ps.length < xs.length)⟩

/-- Entries of a selection list that lie in its partition: in-tile index, code; and whether the list passes its end. -/
def listEntries (s : State) (slab : Nat) (c : Ctx) : List (Nat × Nat) × Bool :=
  let f := (streamOf s c.stream).fmt
  let w := 2 + (if fmtBits f ≤ 8 then 1 else fmtBits f / 8)
  let room := windowBytes s slab c.part - c.offset
  let num := fun (o n : Nat) => leNat ((List.range n).map (fun i => stByte s (stKey slab c.part (c.offset + o) + i)))
  if room < 4 then ([], true) else
  let n := num 0 4
  let m := min n ((room - 4) / w)
  ((List.range m).map (fun i => (num (4 + w * i) 2, num (6 + w * i) (w - 2) % 2 ^ fmtBits f)), decide (m < n))

/-- The elements of a wide RUN: element index, row and column of the two-dimensional shape within a tile (R216, R229). -/
def VeDesc.wide (d : VeDesc) : List (Nat × Nat × Nat) :=
  ((List.range (min 256 d.rows)).flatMap (fun i => (List.range (min 256 d.cols)).map (fun j => (i * d.cols + j, i, j))))
/-- A wide add. DESIGN CHOICE: R226 names no result values for it, so it has none: its sum, counts and saturations are 0 (log 128). -/
def runWideAdd (s : State) (r : VeRun) : RunOut :=
  match r.out s 0 with
  | none => ⟨s, [], 0, false⟩
  | some c =>
    match r.ctx? s (r.d.ins.headD 0xFF) with
    | some x =>
      let st := streamOf s x.stream
      if r.d.dense then
        let ins := r.d.wide.map (fun p => [r.input s 0 p.1])
        let val := fun (e : Nat) =>
          let ix := r.d.indices e (r.d.bcs.headD 0)
          match placeIn s r.slab x (r.d.rowOf ix) (ix.headD 0) st.fmt with
          | some nib => Dy.scale (decode st.fmt (readElem s r.slab x.part nib st.fmt))
              (-(if x.side = 0 then sigmaOf s x.stream else (nibScale s x.stream x.side r.slab x.part x.pitch x.offset nib).1))
          | none => Dy.zero
        addWindow (noteReads s r ins) r c (r.d.wide.map (fun p => (p.2.1, p.2.2, val p.1))) (anyOut ins)
      else
        let es := listEntries s r.slab x
        let sigma := sigmaOf s x.stream
        addWindow (tallyNonfin s (r.upd s) x.stream (es.1.filter (fun e => nonFinite st.fmt e.2)).length) r c
          (es.1.map (fun e => (e.1 / 256, e.1 % 256, Dy.scale (decode st.fmt e.2) (-sigma)))) es.2
    | none =>
      if r.d.ftq then
        addWindow s r c (r.d.wide.map (fun p =>
          let ix := r.d.indices p.1 (r.d.bcs.headD 0)
          (p.2.1, p.2.2, r.ftqValue (r.d.flatRow ix) (ix.headD 0)))) false
      else ⟨s, [], 0, false⟩

/-- A wide convert. DESIGN CHOICE: R226 names no result values for it, so it has none: its sum, counts and saturations are 0
(log 128). -/
def runWideConvert (s : State) (r : VeRun) : RunOut :=
  match r.ctx? s (r.d.ins.headD 0xFF) with
  | none => ⟨s, [], 0, false⟩
  | some x =>
    let es := (List.range (product_ r.d.ext)).filter (fun e => decide (e / r.d.cols < 256) && decide (e % r.d.cols < 256))
    let vals := es.map (fun e =>
      let i := e / r.d.cols
      let j := e % r.d.cols
      if windowIn s r.slab x i j then (e, leave (readWindow s r.slab x i j)) else (e, 0, false))
    let sat := (vals.filter (fun v => v.2.2)).length
    let bad := es.any (fun e => !windowIn s r.slab x (e / r.d.cols) (e % r.d.cols))
    let w := writeOut (windowLoss s r.slab 0 sat) r (vals.map (fun v => outOf r.d v.1 (totalValue v.2.1 r.d.anchor)))
    ⟨w.1, [], 0, w.2 || bad⟩

/-! Summaries (R226), and the RUN as an operation. -/

def nonZero32 (x : Nat) : Bool := x % 2 ^ 31 != 0
/-- The six quantities. -/
def quantities (vals : List Nat) (thresh sat : Nat) : List Nat :=
  [(reduceOp 0 vals).1, (reduceOp 1 vals).1, (reduceOp 4 vals).1, (vals.filter nonZero32).length,
   (vals.filter (fun x => Dy.lt (ofF32 thresh) (Dy.abs (ofF32 x)))).length, sat]
/-- The words of a summary: floats as they are, counts saturating. -/
def summaryWords (d : VeDesc) (qs : List Nat) : List Word :=
  if !d.summ then [] else
  ((List.range 6).filter (fun i => bitAt d.smask i)).map (fun i => BitVec.ofNat 32 (min u32max (qs.getD i 0)))

/-- The tile registers a RUN names hold, in ascending number, the last tile of each staging input and then of its results. DESIGN CHOICE:
no rule says which register holds what, and nothing reads one but the RUN itself (R213, log 21). -/
def keepTiles (s old : State) (r : VeRun) (vals : List Nat) : State :=
  let v := getVe s r.slab
  let regs := (List.range 6).filter (bitAt r.d.regs)
  let n := product_ r.d.ext
  let last := (List.range n).drop (n - 65536)
  let ins := ((List.range 3).filter (fun i => (r.ctx? s (r.d.ins.getD i 0xFF)).isSome)).map (fun i =>
    last.map (fun e => (r.input old i e).code))
  setVe s r.slab { v with tiles := (regs.zip (ins ++ [vals.drop (vals.length - 65536)])).foldl (fun t x => t.put x.1 x.2) v.tiles }
/-! The staging that a RUN reads and writes, row by row (R216, R218, R279). -/

/-- Bytes of a code in a selection list (R228). -/
def listBytes (f : Nat) : Nat := if fmtBits f ≤ 8 then 1 else fmtBits f / 8
/-- Count and entries of a selection list of `n` entries at an offset. -/
def listSpans (slab part off fmt n : Nat) : List Span :=
  [byteSpan slab part off 4, { byteSpan slab part (off + 4) 0 with size := 2 * (2 + listBytes fmt), n := n }]
/-- Row and columns of the shape that a RUN of the kind covers: a wide one no more than a window. -/
def VeDesc.covered (d : VeDesc) : Nat × Nat := if 4 ≤ d.kind then (min 256 d.rows, min 256 d.cols) else (d.rows, d.cols)
/-- What a RUN reads of input `n`. -/
def VeRun.inSpans (s : State) (r : VeRun) (n : Nat) : List Span :=
  match r.ctx? s (r.d.ins.getD n 0xFF) with
  | none => []
  | some c =>
    let f := (streamOf s c.stream).fmt
    let bc := r.d.bcs.getD n 0
    if (r.d.kind = 3 ∧ n = 2) ∨ (4 ≤ r.d.kind ∧ 0 < n) then []
    else if r.d.kind = 5 then (List.range r.d.covered.1).map (fun (i : Nat) => c.span r.slab i 0 r.d.covered.2 48)
    else if r.d.kind = 4 ∧ !r.d.dense then listSpans r.slab c.part c.offset f (listEntries s r.slab c).1.length
    else (List.range r.d.covered.1).map (fun i =>
      c.span r.slab (r.d.rowOf (r.d.indices (i * r.d.cols) bc)) 0 (if bitAt bc 0 then 1 else r.d.covered.2) (fmtNibs f))
/-- Tiles of a select that no mask leaves out; one that its RUN has yet to read off the queue may be any (R123, R227). -/
def VeRun.liveTiles (s : State) (r : VeRun) (mask : Nat) : List Nat :=
  let per := ceilDiv r.d.cols 256
  (List.range (ceilDiv r.d.rows 256 * per)).filter (fun t =>
    (r.d.ftq && (r.ftq[t]?).isNone) || !r.tileOff s mask (t / per) (t % per))
/-- What a RUN writes to out0: of a select, room for the elements it can select; of a sparse wide add, the elements its list names. -/
def VeRun.outSpans (s : State) (r : VeRun) : List Span :=
  let d := r.d
  match r.out s 0 with
  | none => []
  | some c =>
    let f := (streamOf s c.stream).fmt
    let row := fun (i : Nat) => d.rowOf (d.indices (i * d.cols) 0)
    let per := ceilDiv d.cols 256
    if d.kind = 2 then
      (if d.axis = 0 then (List.range d.rows).map (fun i => c.span r.slab (row i) 0 1 (fmtNibs f))
       else [c.span r.slab 0 0 (if d.axis = 1 then d.cols else 1) (fmtNibs f)])
    else if d.kind = 3 then (r.liveTiles s c.mask).flatMap (fun t =>
      listSpans r.slab c.part (c.offset + t * c.pitch) f (min d.param (r.eligible s c.mask (t / per) (t % per)).length))
    else if d.kind = 4 then
      (match if d.dense || d.ftq then none else r.ctx? s (d.ins.headD 0xFF) with
       | some x => ((listEntries s r.slab x).1.map (·.1)).eraseDups.map (fun i => c.span r.slab (i / 256 : Nat) (i % 256) 1 48)
       | none => (List.range d.covered.1).map (fun (i : Nat) => c.span r.slab i 0 d.covered.2 48))
    else (List.range d.covered.1).map (fun i => c.span r.slab (row i) 0 d.covered.2 (fmtNibs f))
/-- What a RUN writes to out1: the error-feedback elements of a select, or the transposed copy. -/
def VeRun.outSpans1 (s : State) (r : VeRun) : List Span :=
  let d := r.d
  match r.out s 1 with
  | none => []
  | some c =>
    let per := ceilDiv d.cols 256
    if d.kind = 3 then
      let m := match r.out s 0 with | some x => x.mask | none => 0
      (r.liveTiles s m).flatMap (fun t => (r.eligible s m (t / per) (t % per)).map (fun x =>
        c.span r.slab (d.rowOf (d.indices ((256 * (t / per) + x / 256) * d.cols) 0)) (256 * (t % per) + x % 256) 1 8))
    else if !d.trans then []
    else
      let size := match r.out s 0 with | some x => fmtNibs (streamOf s x.stream).fmt | none => 0
      let ext := if d.kind = 2 then (if d.axis = 0 then (d.rows, 1) else if d.axis = 1 then (1, d.cols) else (1, 1)) else d.covered
      (List.range ext.2).map (fun (j : Nat) => c.span r.slab j 0 ext.1 size)

/-- Input `n` has the address formula of out0: a map may write out0 over it, in place (R218). -/
def VeRun.inPlace (s : State) (r : VeRun) (n : Nat) : Bool :=
  match r.ctx? s (r.d.ins.getD n 0xFF), r.out s 0 with
  | some a, some b => r.d.kind == 1 && a.part == b.part && a.offset == b.offset && a.pitch == b.pitch &&
      fmtNibs (streamOf s a.stream).fmt == fmtNibs (streamOf s b.stream).fmt && r.d.bcs.getD n 0 == 0
  | _, _ => false
/-- Elements of some runs that overlap others. -/
def overlapping (s : State) (xs ys : List Span) : List Span :=
  (xs.filter (fun x => meetsAny x ys)).flatMap (fun x => (x.elems s).filter (fun e => meetsAny e ys))
/-- The elements of a RUN's inputs, and of its outputs, that overlap otherwise than in place (R218). -/
def VeRun.clash (s : State) (r : VeRun) : List Span × List Span :=
  let ins := [0, 1, 2].map (fun n => (r.inSpans s n, r.inPlace s n))
  let o0 := r.outSpans s
  let o1 := r.outSpans1 s
  (ins.flatMap (fun x => overlapping s x.1 ((if x.2 then [] else o0) ++ o1)),
   overlapping s o0 ((ins.filter (fun x => !x.2)).flatMap (·.1) ++ o1) ++ overlapping s o1 (ins.flatMap (·.1) ++ o0))
/-- Elements of staging take unspecified values (R7, R218, log 8). -/
def freeClash (s : State) (l : List Span) : State :=
  if l.isEmpty then s else
  bumpFree (l.foldl (fun u x => (List.range x.len).foldl (fun v i =>
    writeElem v x.slab x.part (x.nib.toNat + i) 1 (Config.freeNibble s.freeCtr (2 * stKey x.slab x.part 0 + x.nib.toNat + i) % 16) false) u) s)

/-- Read, compute, write: everything of a RUN but its finish. Elements of inputs that an output overlaps otherwise than in place are read
unspecified, and left so (R218). -/
def performRun (s : State) (r : VeRun) (op : Nat) : State :=
  let d := r.d
  let k := r.clash s
  let s := freeClash s k.1
  let q := if d.kind = 1 then runMap s r else if d.kind = 2 then runReduce s r else if d.kind = 3 then runSelect s r
    else if d.kind = 4 then runWideAdd s r else runWideConvert s r
  let s := keepTiles (freeClash q.st k.2) s r q.vals
  let s := if q.out then raise s (slabSource r.slab) Ev.veBound (BitVec.ofNat 24 r.index) else s
  let qs := quantities q.vals d.thresh q.sat
  let s := setOp s op (fun o => { o with reads := [], taken := [] })
  setOpKind s op (.run r.slab r.mask d.regs r.index true (summaryWords d qs) d.sdest (qs.getD 3 0) (qs.getD 4 0) (qs.getD 5 0))

def Slot.veSlot (sl : Slot) (slab : Nat) : Bool := sl.index == 64 + slab && sl.opcode == 1
def Slot.laneMask (sl : Slot) : Nat := sl.bits 59 56
/-- The kind of the descriptor a RUN slot names. -/
def Slot.veKind (s : State) (sl : Slot) : Nat := fieldAt (descBytes s sl.passage sl.descIndex) 0 1
def Slot.veRun (s : State) (sl : Slot) : VeRun :=
  { slab := sl.index - 64, passage := sl.passage, index := sl.descIndex, mask := sl.laneMask,
    d := VeDesc.ofBytes (descBytes s sl.passage sl.descIndex), scalars := sl.scalars, ftq := [] }

/-- Staging that a RUN has yet to write, and to read. -/
def VeRun.writes (s : State) (r : VeRun) : List Span :=
  (match r.out s 0 with | some c => sideSpans s r.slab c.stream | none => []) ++ r.outSpans s ++ r.outSpans1 s
def VeRun.reads (s : State) (r : VeRun) : List Span := [0, 1, 2].flatMap (r.inSpans s)
/-- The places of the queue that a RUN which is about to start will read, as far as they stand there: those that the RUNs waiting in
front of it leave (R213). -/
def comingTiles (s : State) (slab : Nat) : List FtqEntry :=
  (s.psc.ops.filter (fun o => lacksTiles o slab)).foldl
    (fun q o => (takePlaces (fun _ => true) (isSelect s o) q o.need).2) (getVe s slab).ftq
/-- A RUN as it stands at its issue, for what it will read and write. -/
def Slot.nextRun (s : State) (sl : Slot) : VeRun :=
  let r := sl.veRun s
  if r.d.ftq then { r with ftq := (takePlaces (fun _ => true) (r.d.kind == 3) (comingTiles s r.slab) r.d.ftqTiles).1 } else r

/-- A RUN slot is valid; the events of one that is not (R217). -/
def runValid (s : State) (sl : Slot) : Bool :=
  let r := sl.veRun s
  decide (sl.descIndex < (pentry s sl.passage).ndesc) && r.d.ok s r.slab sl.passage sl.laneMask
/-- Op words with a non-zero reserved bit, or non-zero words after the last one (R217, R219): a read of them raises
`reserved_write` (R14). -/
def progReserved (ws : List Nat) (plen : Nat) : Bool := (ws.take plen).any (fun w => fld w 7 0 != 0) || (ws.drop plen).any (· != 0)
def noteProg (s : State) (slab p prog plen : Nat) (ws : List Nat) : State :=
  if decide (prog + ceilDiv plen 16 ≤ (pentry s p).ndesc) && progReserved ws plen then
    reservedRead s (slabSource slab) ((pentry s p).desc + 64 * prog) else s
def noteRun (s : State) (sl : Slot) : State :=
  let r := sl.veRun s
  let s := if decide (sl.descIndex < (pentry s sl.passage).ndesc) && r.d.plen != 0 && decide (r.d.plen ≤ 32) &&
      (r.d.kind == 1 || r.d.kind == 2) then
    noteProg s r.slab sl.passage r.d.prog r.d.plen (progWords s sl.passage r.d) else s
  let s := if decide (sl.descIndex < (pentry s sl.passage).ndesc) && r.d.reserved then
      reservedRead s (slabSource r.slab) ((pentry s sl.passage).desc + 64 * sl.descIndex) else s
  if !runValid s sl then notePassage s (slabSource r.slab) Ev.veInvalid sl.passage (BitVec.ofNat 24 sl.descIndex)
  else if !r.d.ctxsOk s sl.passage then noteContext s sl.passage else s

/-- The RUN of a started operation, with the scalars its slot sampled. -/
def opRun (s : State) (o : Op) (slab mask desc : Nat) (scalars : List Word) : VeRun :=
  { slab := slab, passage := o.passage, index := desc, mask := mask,
    d := VeDesc.ofBytes (descBytes s o.passage desc), scalars := scalars, ftq := o.taken }
/-- A started RUN runs once it lacks no entry of the queue. -/
def tryRun (s : State) (op : Nat) : State :=
  match findOp s op with
  | some o =>
    match o.kind with
    | .run slab mask _ desc false scalars _ _ _ _ =>
      let r := opRun s o slab mask desc scalars
      if r.d.kind = 6 ∨ 0 < o.need then s else performRun s r op
    | _ => s
  | none => s
/-- Start a RUN: its lane groups and registers are busy, and it runs as soon as it has its queue entries. -/
def startRun (s : State) (sl : Slot) : State :=
  let r := sl.nextRun s
  let v := getVe s r.slab
  let s := setVe s r.slab { v with groups := v.groups ||| BitVec.ofNat 4 sl.laneMask, regs := v.regs ||| BitVec.ofNat 6 r.d.regs,
                                   runWait := 0, ownerLast := false }
  let s := addOp s { sl.toOp (.run r.slab sl.laneMask r.d.regs sl.descIndex false sl.scalars r.d.sdest 0 0 0) (r.writes s) with
                     reads := r.reads s, need := if r.d.ftq then r.d.ftqTiles else 0 }
  tryRun (feedRun s r.slab) sl.op

/-- A RUN finishes (R214, R226); one that waited for its queue entries runs first. -/
def runFinish (s : State) (op : Nat) : State :=
  let s := tryRun s op
  match findOp s op with
  | some o =>
    match o.kind with
    | .run _ _ _ _ true _ _ _ _ _ => finishOp (finishRun s o) op
    | _ => s
  | none => s

/-- Why a RUN cannot be accepted: busy lane groups or registers, or owner work whose turn it is (R214, R256). -/
def runHold (s : State) (sl : Slot) : Option Nat :=
  if sl.opcode = 0 then none else
  let v := getVe s (sl.index - 64)
  let regs := fld (fieldAt (descBytes s sl.passage sl.descIndex) 3 1) 5 0
  if v.groups.toNat &&& sl.laneMask ≠ 0 ∨ v.regs.toNat &&& regs ≠ 0 ∨
      (v.ownerWait ∧ !v.ownerLast ∧ (List.range (laneGroups s (sl.index - 64))).all (fun g => v.groups.getLsbD g || bitAt sl.laneMask g)) then
    some 8
  else none

/-! Meanings. -/

def veAct (s : State) (slab kind : Nat) : Result :=
  match takeSlot s (fun sl => sl.veSlot slab && sl.veKind s == kind) with
  | some (sl, t) => .next (startRun t sl)
  | none => .next s
def execVeMap (slab : Fin 8) (s : State) : Result := veAct s slab.val 1
def execVeReduce (slab : Fin 8) (s : State) : Result := veAct s slab.val 2
def execVeSelect (slab : Fin 8) (s : State) : Result := veAct s slab.val 3
def execVeWideAdd (slab : Fin 8) (s : State) : Result := veAct s slab.val 4
def execVeWideConvert (slab : Fin 8) (s : State) : Result := veAct s slab.val 5
def execRunFinish (op : Nat) (s : State) : Result := .next (runFinish s op)

end Sys2Proof.Machine
end

