-- ==== Sys2Proof/Machine/Update.lean ====
section
/-! DEFINITION. Parameter update: descriptors, schedules, update programs, tiles read and written once, masked tiles,
embedding rows (R231 to R241). -/

namespace Sys2Proof.Machine

/-! Descriptors (R231, R232). -/

structure UpdDesc where
  stoch  : Bool
  embed  : Bool
  summ   : Bool
  plen   : Nat
  regs   : Nat
  prog   : Nat
  group  : Nat
  tensor : Nat
  nmom   : Nat
  g      : Nat
  w      : Nat
  wo     : Nat
  ms     : List Nat
  t      : Nat
  c      : Nat
  portS  : Nat
  portC  : Nat
  r      : Nat
  sc     : Nat
  sbank  : Nat
  rows   : Nat
  cols   : Nat
  row0   : Nat
  col0   : Nat
  mask   : Nat
  sdest  : Nat
  smask  : Nat
  reserved : Bool
  deriving DecidableEq, Repr

def UpdDesc.ofBytes (b : List Byte) : UpdDesc :=
  let f := fieldAt b 1 1
  { stoch := bitAt f 0, embed := bitAt f 1, summ := bitAt f 2, plen := fieldAt b 2 1, regs := fld (fieldAt b 3 1) 5 0,
    prog := fieldAt b 4 2, group := fieldAt b 6 2, tensor := fieldAt b 8 2, nmom := fieldAt b 0xA 1, g := fieldAt b 0xB 1,
    w := fieldAt b 0xC 1, wo := fieldAt b 0xD 1, ms := (List.range 3).map (fun i => fieldAt b (0xE + i) 1),
    t := fieldAt b 0x11 1, c := fieldAt b 0x12 1, portS := fieldAt b 0x13 1, portC := fieldAt b 0x14 1, r := fieldAt b 0x15 1,
    sc := fieldAt b 0x16 1, sbank := fieldAt b 0x17 1, rows := fieldAt b 0x18 4, cols := fieldAt b 0x1C 4,
    row0 := fieldAt b 0x20 4, col0 := fieldAt b 0x24 4, mask := fieldAt b 0x28 2, sdest := fieldAt b 0x2A 1,
    smask := fld (fieldAt b 0x2B 1) 5 0,
    reserved := decide (8 ≤ f) || decide (64 ≤ fieldAt b 3 1) || decide (64 ≤ fieldAt b 0x2B 1) || !allZero (slice b 0x2C 0x40) }

/-- The operations of update programs (R233). -/
def updOpOk (op : Nat) : Bool :=
  (decide (1 ≤ op) && decide (op ≤ 0xE)) || (decide (0x13 ≤ op) && decide (op ≤ 0x19)) || op == 0x1B || op == 0x1C || op == 0x20
def updSrcOk (x : Nat) : Bool := decide (x < 13) || decide (16 ≤ x)
def updWordOk (w : Nat) : Bool :=
  let n := veOpSources (fld w 31 26)
  updOpOk (fld w 31 26) && fld w 7 0 == 0 && updSrcOk (fld w 22 18) && updSrcOk (fld w 17 13) && updSrcOk (fld w 12 8) &&
    (decide (0 < n) || fld w 22 18 == 0) && (decide (1 < n) || fld w 17 13 == 0) && (decide (2 < n) || fld w 12 8 == 0)
def updWords (s : State) (p : Nat) (d : UpdDesc) : List Nat :=
  (List.range (16 * ceilDiv d.plen 16)).map (fun i => fieldAt (descBytes s p (d.prog + i / 16)) (4 * (i % 16)) 4)

def UpdDesc.ok (s : State) (slab p mask : Nat) (d : UpdDesc) : Bool :=
  let words := updWords s p d
  !d.reserved && decide (1 ≤ d.plen) && decide (d.plen ≤ 32) && decide (d.group < 4096) && decide (d.tensor < 1024) &&
    decide (d.nmom ≤ 3) && d.g != 0xFF && d.w != 0xFF && d.wo != 0xFF &&
    (List.range 3).all (fun i => (d.ms.getD i 0xFF == 0xFF) == decide (d.nmom ≤ i)) &&
    decide (d.prog + ceilDiv d.plen 16 ≤ (pentry s p).ndesc) && (words.take d.plen).all updWordOk &&
    (words.drop d.plen).all (· == 0) && decide (2 + d.nmom + (if d.t = 0xFF then 0 else 1) ≤ popcount d.regs 6) &&
    (if d.embed then d.r != 0xFF && d.sc != 0xFF && verStash s d.tensor == 0 else d.r == 0xFF && d.sc == 0xFF) &&
    decide (d.sbank % 64 ≤ 56) && (!d.summ || decide (d.sdest % 64 + popcount d.smask 6 ≤ 64)) &&
    decide (1 ≤ d.rows) && decide (d.rows ≤ 2 ^ 20) && decide (1 ≤ d.cols) && decide (d.cols ≤ 2 ^ 20) && d.row0 % 256 == 0 &&
    d.col0 % 256 == 0 && decide (mask < 2 ^ laneGroups s slab) && d.regs &&& maskRegs s slab mask == d.regs
def UpdDesc.ctxsOk (s : State) (p : Nat) (d : UpdDesc) : Bool :=
  ([d.g, d.w, d.wo, d.t, d.c, d.r, d.sc] ++ d.ms).all (fun i =>
    i == 0xFF || (decide (i < (pentry s p).nctx) && (ctxOf s p i).good 2))

/-! Parameter groups (R237 to R239), from the step's copy. -/

def groupHead (s : State) (g : Nat) : List Byte := smpBytes s (smpPair s 0x040048 + 64 * g) 64
/-- Points of a curve: step, FP32 value; and whether a reserved field of one is non-zero. -/
def curvePoint (s : State) (base i : Nat) : Nat × Nat × Bool :=
  let b := smpBytes s (base + 16 * i) 16
  (fieldAt b 0 8 % 2 ^ 40, fieldAt b 8 4, decide (2 ^ 40 ≤ fieldAt b 0 8) || fieldAt b 0xC 4 != 0)
def curve (s : State) (h : List Byte) (wd : Bool) : List (Nat × Nat × Bool) :=
  let base := addr52 (fieldAt h 8 8) + (if wd then 0x1000 else 0)
  (List.range (min 256 (fieldAt h (if wd then 2 else 0) 2))).map (curvePoint s base)
def ascending : List Nat → Bool
  | a :: b :: t => decide (a < b) && ascending (b :: t)
  | _ => true
def groupReserved (s : State) (h : List Byte) : Bool :=
  decide (2 ≤ fieldAt h 4 4) || addrHigh (fieldAt h 8 8) || !allZero (slice h 0x30 0x40) ||
    (curve s h false ++ curve s h true).any (fun p => p.2.2)
def groupOk (s : State) (h : List Byte) : Bool :=
  bitAt (fieldAt h 4 4) 0 && !groupReserved s h && (addr52 (fieldAt h 8 8)) % 16 == 0 &&
    [0, 2].all (fun o => decide (1 ≤ fieldAt h o 2) && decide (fieldAt h o 2 ≤ 256)) &&
    [false, true].all (fun w => ascending ((curve s h w).map (·.1)) && (curve s h w).all (fun p => !nonFinite 9 p.2.1)) &&
    (List.range 8).all (fun i => !nonFinite 9 (fieldAt h (0x10 + 4 * i) 4))
/-- The value of a curve at a step, rounded once (R238). -/
def curveAt (ps : List (Nat × Nat × Bool)) (step : Nat) : Nat :=
  match ps with
  | [] => 0
  | p :: _ =>
    if step ≤ p.1 then toF32 (ofF32 p.2.1) else
    match (ps.zip (ps.drop 1)).find? (fun x => decide (x.1.1 ≤ step) && decide (step < x.2.1)) with
    | some (a, b) => toF32 (Dy.add (ofF32 a.2.1)
        (quotDy (Dy.mul (Dy.sub (ofF32 b.2.1) (ofF32 a.2.1)) ⟨(step - a.1 : Nat), 0⟩) ⟨(b.1 - a.1 : Nat), 0⟩))
    | none => match ps.getLast? with | some q => toF32 (ofF32 q.2.1) | none => 0

/-! An update at work. -/

/-- The update RUN: the slot's surroundings and the values that every element shares. -/
structure UpdRun where
  run   : VeRun
  d     : UpdDesc
  step  : Nat
  lr    : Nat
  wd    : Nat
  cs    : List Nat
  okGrp : Bool
  deriving DecidableEq, Repr

def UpdRun.slab (u : UpdRun) : Nat := u.run.slab
def UpdRun.ctx? (s : State) (u : UpdRun) (i : Nat) : Option Ctx := if i = 0xFF then none else some (ctxOf s u.run.passage i)
def UpdRun.bcols (u : UpdRun) : Nat := ceilDiv u.d.cols 256
def UpdRun.tiles (u : UpdRun) : Nat := ceilDiv u.d.rows 256 * u.bcols
/-- Block row and column of tile `t` in W. -/
def UpdRun.block (u : UpdRun) (t : Nat) : Nat × Nat := (u.d.row0 / 256 + t / u.bcols, u.d.col0 / 256 + t % u.bcols)

def Slot.updRun (s : State) (sl : Slot) : UpdRun :=
  let d := UpdDesc.ofBytes (descBytes s sl.passage sl.descIndex)
  let h := groupHead s d.group
  let step := s.psc.step.toNat
  { run := sl.veRun s, d := d, step := step, lr := curveAt (curve s h false) step, wd := curveAt (curve s h true) step,
    cs := (List.range 8).map (fun i => fieldAt h (0x10 + 4 * i) 4), okGrp := groupOk s h }

/-- A source of an update program (R233). -/
def updSource (u : UpdRun) (n : Nat) (temps : List Nat) (c : Nat) : Nat :=
  if c < 8 then temps.getD c 0 else if c = 8 then u.lr else if c = 9 then u.wd else if c = 10 then toF32 ⟨(n : Int), 0⟩
  else if c = 12 then toF32 ⟨((u.step + 1 : Nat) : Int), 0⟩ else if c < 16 then 0
  else if c < 24 then toF32 (ofF32 (u.cs.getD (c - 16) 0))
  else toF32 (ofF32 (u.run.scalars.getD (c - 24) 0).toNat)
def updOp (u : UpdRun) (n : Nat) (t : ProgState) (w : Nat) : ProgState :=
  let src := fun (hi lo : Nat) => ofF32 (updSource u n t.temps (fld w hi lo))
  let q := veOp (fld w 31 26) (src 22 18) (src 17 13) (src 12 8) none none
  { temps := t.temps.set (fld w 25 23) q.code, sat := t.sat + (if q.sat then 1 else 0) + (if q.dom then 1 else 0) }

/-- An element of the region that the update visits: local row and column, the gradient's row, and the missed steps. -/
structure UpdElem where
  r  : Nat
  c  : Nat
  gr : Nat
  n  : Nat
  deriving DecidableEq, Repr

/-- The touched-row list of an embedding update: count and rows; none where it breaks its order (R240, R241). -/
def listIn (s : State) (u : UpdRun) (c : Ctx) (o : Nat) : Bool := decide (c.offset + o + 4 ≤ windowBytes s u.slab c.part)
def listNum (s : State) (u : UpdRun) (c : Ctx) (o : Nat) : Nat :=
  if listIn s u c o then leNat ((List.range 4).map (fun i => stByte s (stKey u.slab c.part (c.offset + o) + i))) else 0
def rowList (s : State) (u : UpdRun) : Option (List Nat) :=
  match u.ctx? s u.d.r with
  | none => some []
  | some c =>
    let n := listNum s u c 0
    if u.d.rows < n then none else
    let l := (List.range n).map (fun i => listNum s u c (4 + 4 * i))
    if ascending l then some l else none
/-- A read of the list passes the end of its partition: it gives zero (R217). -/
def rowListOut (s : State) (u : UpdRun) : Bool :=
  match u.ctx? s u.d.r with
  | none => false
  | some c =>
    let n := listNum s u c 0
    !listIn s u c 0 || (decide (0 < n) && decide (n ≤ u.d.rows) && !listIn s u c (4 * n))
def countPlace (s : State) (u : UpdRun) (r : Nat) : Option Nat :=
  match u.ctx? s u.d.sc with
  | some c => if c.offset + 4 * r + 4 ≤ windowBytes s u.slab c.part then some (stKey u.slab c.part (c.offset + 4 * r)) else none
  | none => none
/-- Missed steps of a row. -/
def missedSteps (s : State) (u : UpdRun) (r : Nat) : Nat :=
  let last := match countPlace s u r with
    | some k => leNat ((List.range 4).map (fun i => stByte s (k + i)))
    | none => 0
  (BitVec.ofNat 32 u.step - BitVec.ofNat 32 last - 1).toNat

/-- The elements of tile `t` that the update visits, in row-major order. -/
def tileElems (s : State) (u : UpdRun) (rows : Option (List Nat)) (t : Nat) : List UpdElem :=
  let r0 := 256 * (t / u.bcols)
  let c0 := 256 * (t % u.bcols)
  let cs := (List.range (min 256 (u.d.cols - c0))).map (· + c0)
  match rows with
  | none => (List.range (min 256 (u.d.rows - r0))).flatMap (fun i => cs.map (fun c => ⟨r0 + i, c, r0 + i, 0⟩))
  | some l => ((l.zip (List.range l.length)).filter (fun x => decide (r0 ≤ x.1) && decide (x.1 < r0 + 256) && decide (x.1 < u.d.rows))).flatMap
      (fun x => let n := missedSteps s u x.1; cs.map (fun c => ⟨x.1, c, x.2, n⟩))

/-- A read of one of the update's tensors. -/
def updRead (s : State) (u : UpdRun) (i r c : Nat) : ReadOut :=
  match u.ctx? s i with
  | some x => readCtx s u.slab x r c
  | none => ⟨0, false, false, false⟩

/-- The new temporaries of an element; a masked row's element keeps what was read. -/
def updValue (s : State) (u : UpdRun) (ws : List Nat) (x : UpdElem) : ProgState :=
  let rd := fun (i : Nat) => (updRead s u i x.r x.c).code
  let temps := [rd u.d.w, rd (u.d.ms.getD 0 0xFF), rd (u.d.ms.getD 1 0xFF), rd (u.d.ms.getD 2 0xFF),
    (updRead s u u.d.g x.gr x.c).code, 0, 0, 0]
  if rowMasked s u.d.mask (u.d.row0 + x.r) then { temps := temps, sat := 0 }
  else ws.foldl (updOp u x.n) { temps := temps, sat := 0 }

/-- An element of a tile to be written: row and column in its tensor, element index, exact value, and whether its row is masked. -/
structure UpdPut where
  row    : Nat
  col    : Nat
  index  : Nat
  y      : Dy
  masked : Bool
  deriving DecidableEq, Repr

/-- Write one tensor of a tile: rounding key, tile check, the extent of its rows (R26), the elements; and its side table. Elements of
masked rows are written back as read, and count nowhere (R123, R144). -/
def updWrite (s : State) (u : UpdRun) (c : Ctx) (key : Option Quad) (checked : Bool) (ext : Nat) (es : List UpdPut) : State :=
  let st := streamOf s c.stream
  let sigma := sigmaOf s c.stream
  let at_ := es.filterMap (fun e => (placeIn s u.slab c (e.row : Int) e.col st.fmt).map (fun nib => (nib, e)))
  let rnd := fun (e : UpdPut) => key.map (fun q => r24 (draw q c.tid e.index))
  let live := at_.filter (fun x => !x.2.masked)
  let out := convertTile st.fmt sigma (checked && st.checked) (live.map (fun x => { key := x.1, y := x.2.y, r := rnd x.2 }))
  let s := noteJit (tally s (u.run.upd s) c.stream out.stat) c.stream out
  let scale := if st.scaled then sigma + out.delta else 0
  let kept := (at_.filter (fun x => x.2.masked)).map (fun x => (x, (convert st.fmt (Dy.scale x.2.y scale) (rnd x.2)).code))
  let s := (live.zip (out.convs.map (fun v => v.2.code)) ++ kept).foldl (fun v x =>
    writeElem v u.slab c.part x.1.1 st.fmt x.2 (endsOdd ext x.1.2.col)) s
  match at_.head? with
  | some x => if st.scaled then
      let t := storedTile c st.fmt x.1
      writeSide s c.side (stKey u.slab c.part c.offset) c.pitch (t.1 * tilesPerRow c st.fmt + t.2) sigma out.delta else s
  | none => s

def UpdRun.key (s : State) (u : UpdRun) (port : Nat) : Option Quad := consumerKey s 3 u.slab port 3
/-- A copy's rounding key: stochastic by its layer's rung (R153, R234). -/
def UpdRun.copyKey (s : State) (u : UpdRun) (c : Ctx) : Option Quad :=
  if rungRound s (streamOf s c.stream) 2 then u.key s u.d.portC else none
/-- The element index of a weight element (R49). -/
def UpdRun.elemIndex (u : UpdRun) (x : UpdElem) : Nat := (u.d.row0 + x.r) * 2 ^ 20 + u.d.col0 + x.c

/-- Places that the update reads or writes for an element, whether one is out of bounds. -/
def updOut (s : State) (u : UpdRun) (x : UpdElem) : Bool :=
  let bad := fun (i r c : Nat) => match u.ctx? s i with
    | some k => (placeIn s u.slab k (r : Int) c (streamOf s k.stream).fmt).isNone
    | none => false
  bad u.d.g x.gr x.c || ([u.d.w, u.d.wo, u.d.c] ++ u.d.ms).any (fun i => bad i x.r x.c) || bad u.d.t x.c x.r

/-- What an update leaves while its tiles go by: its new values, each with its element's index in the region. -/
structure UpdOut where
  st   : State
  vals : List (Nat × Nat)
  sat  : Nat
  out  : Bool

/-- The tile registers the descriptor names hold, in ascending number, the last tile read, the transpose of its new values where it has a
transposed copy, and the new values where a register is left (R213, R232, R234, log 21). -/
def keepUpdTiles (s : State) (u : UpdRun) (ins : List (List ReadOut)) (vs : List (UpdElem × ProgState)) : State :=
  let v := getVe s u.slab
  let regs := (List.range 6).filter (bitAt u.d.regs)
  let t0 := fun (l : List (UpdElem × ProgState)) => l.map (fun x => x.2.temps.getD 0 0)
  let cols := (List.range 256).flatMap (fun j => vs.filter (fun x => decide (x.1.c % 256 = j)))
  let held := (List.range (2 + u.d.nmom)).map (fun n => ins.filterMap (fun l => (l[n]?).map (·.code))) ++
    (if u.d.t = 0xFF then [] else [t0 cols]) ++ [t0 vs]
  setVe s u.slab { v with tiles := (regs.zip held).foldl (fun t x => t.put x.1 x.2) v.tiles }

/-- One tile, read once and written once (R234). -/
def updTile (q : UpdOut) (u : UpdRun) (ws : List Nat) (rows : Option (List Nat)) (t : Nat) : UpdOut :=
  let s := q.st
  let es := tileElems s u rows t
  let reads := [u.d.g, u.d.w] ++ u.d.ms
  let ins := es.map (fun x => (updRead s u u.d.g x.gr x.c) :: (reads.drop 1).map (fun i => updRead s u i x.r x.c))
  let vs := es.map (fun x => (x, updValue s u ws x))
  let val := fun (n : Nat) => vs.map (fun v =>
    ({ row := v.1.r, col := v.1.c, index := u.elemIndex v.1, y := ofF32 (v.2.temps.getD n 0),
       masked := rowMasked q.st u.d.mask (u.d.row0 + v.1.r) } : UpdPut))
  let bad := es.any (fun x => updOut s u x || (rows.isSome && (countPlace s u x.r).isNone))
  let s := keepUpdTiles s u ins vs
  let s := (List.range reads.length).foldl (fun v n =>
    match u.ctx? v (reads.getD n 0xFF) with
    | none => v
    | some c =>
      let mine := ins.filterMap (fun l => l[n]?)
      let v := tallyNonfin (noteStream v c.stream) (u.run.upd v) c.stream (mine.filter (·.nonfin)).length
      if mine.any (·.badTab) then reservedRead v (slabSource u.slab) c.side else v) s
  let s := match u.ctx? s u.d.wo with
    | some c => updWrite s u c (if u.d.stoch then u.key s u.d.portS else none) false u.d.cols (val 0)
    | none => s
  let s := (List.range 3).foldl (fun v n => match u.ctx? v (u.d.ms.getD n 0xFF) with
    | some c => updWrite v u c none true u.d.cols (val (n + 1))
    | none => v) s
  let s := match u.ctx? s u.d.c with
    | some c => updWrite s u c (u.copyKey s c) true u.d.cols (val 0)
    | none => s
  let s := match u.ctx? s u.d.t with
    | some c => updWrite s u c (u.copyKey s c) true u.d.rows ((val 0).map (fun e => { e with row := e.col, col := e.row }))
    | none => s
  ⟨s, q.vals ++ vs.map (fun v => (v.1.r * u.d.cols + v.1.c, v.2.temps.getD 0 0)), q.sat + sumNat (vs.map (fun v => v.2.sat)), q.out || bad⟩

/-- Rows and columns of the weight on this chip: those of the tensor in a valid group, else of its mask, else the extent of the region
(R120, R246, log 25). -/
def UpdRun.extents (s : State) (u : UpdRun) : Nat × Nat :=
  match (s.rlp.groups.flatMap (fun g => gtensors s (rgroup s g))).find? (fun x => x.tensor == u.d.tensor) with
  | some x => (x.rows, x.cols)
  | none =>
    if maskOk s u.d.mask then (fieldAt (maskBytes s u.d.mask) 4 4, fieldAt (maskBytes s u.d.mask) 8 4)
    else (u.d.row0 + u.d.rows, u.d.col0 + u.d.cols)
/-- Copy a tile of the current version, in one order, to a context through which the new version's buffer is written, its scale with it
as it stood when the RUN began. -/
def keepCopy (s old : State) (u : UpdRun) (t i : Nat) (wt : Bool) : State :=
  match u.ctx? s i with
  | none => s
  | some c =>
    let f := (streamOf s c.stream).fmt
    let base := verBuffer s u.d.tensor (curBuffer (getVer s u.d.tensor)) wt
    let cols := if wt then (u.extents s).1 else (u.extents s).2
    let es := (tileElems s u none t).filterMap (fun x =>
      let rc : Nat × Nat := if wt then (x.c, x.r) else (x.r, x.c)
      (placeIn s u.slab c (rc.1 : Int) rc.2 f).map (fun nib => (nib, rc)))
    let s := es.foldl (fun z x =>
      let gr := x.2.1 + (if wt then u.d.col0 else u.d.row0)
      let gc := x.2.2 + (if wt then u.d.row0 else u.d.col0)
      writeElem z u.slab c.part x.1 f (hostCode z (rowPlace base cols f gr gc) f) (endsOdd (if wt then u.d.rows else u.d.cols) x.2.2)) s
    match es.head? with
    | some x =>
      let sigma := sigmaOf s c.stream
      let k := storedTile c f x.1
      let sc := nibScale old c.stream c.side u.slab c.part c.pitch c.offset x.1
      let s := if sc.2 then reservedRead s (slabSource u.slab) c.side else s
      if (streamOf s c.stream).scaled then
        writeSide s c.side (stKey u.slab c.part c.offset) c.pitch (k.1 * tilesPerRow c f + k.2) sigma (sc.1 - sigma)
      else s
    | none => s
/-- A masked tile, or one of a failed group: nothing with a stash of 0; else the new version's buffers get the current
version's tile in both orders (R123, R239, log 25). -/
def keepTile (s old : State) (u : UpdRun) (t : Nat) : State :=
  if verStash s u.d.tensor = 0 then s else
  keepCopy (keepCopy s old u t (if u.d.c = 0xFF then u.d.wo else u.d.c) false) old u t u.d.t true

/-- A tile that the update acts on as on a masked block (R123, R239). -/
def UpdRun.tileOff (s : State) (u : UpdRun) (t : Nat) : Bool :=
  !u.okGrp || blockMasked s u.d.mask (u.block t).1 (u.block t).2
/-- Step counts of the listed rows of a block row, once its last tile has been written; none where no tile was (R240). -/
def writeCounts (s : State) (u : UpdRun) (rows : Option (List Nat)) (t : Nat) : State :=
  match rows with
  | none => s
  | some l =>
    let b := t / u.bcols
    if (t + 1) % u.bcols ≠ 0 || (List.range u.bcols).all (fun j => u.tileOff s (b * u.bcols + j)) then s else
    (l.filter (fun r => decide (r / 256 = b ∧ r < u.d.rows))).foldl (fun v r => match countPlace v u r with
      | some k => stWrite v k (leBytes 4 (u.step % 2 ^ 32))
      | none => v) s

/-- Tiles from `t` on; a tile whose read is uncorrectable ends the RUN (R236). -/
def updTiles (old : State) (u : UpdRun) (ws : List Nat) (rows : Option (List Nat)) (badTile : Option Nat) :
    List Nat → UpdOut → UpdOut × Option Nat
  | [], q => (q, none)
  | t :: ts, q =>
    if u.tileOff q.st t then
      updTiles old u ws rows badTile ts { q with st := writeCounts (keepTile q.st old u t) u rows t }
    else if badTile = some t then (q, some t)
    else
      let r := updTile q u ws rows t
      updTiles old u ws rows badTile ts { r with st := writeCounts r.st u rows t }

/-- Free what a RUN held and record its counts, leaving its operation unfinished (R236). -/
def updStop (s : State) (u : UpdRun) : State :=
  let v := getVe s u.slab
  setVe s u.slab { v with groups := v.groups &&& ~~~ BitVec.ofNat 4 u.run.mask, regs := v.regs &&& ~~~ BitVec.ofNat 6 u.d.regs }

/-- The events that an update's tables call for: mask, group, undeclared consumers. -/
def noteUpdate (s : State) (u : UpdRun) : State :=
  let s := noteMask s u.d.mask
  let h := groupHead s u.d.group
  let s := noteTable s (smpPair s 0x040048 + 64 * u.d.group) 64
  let s := if u.okGrp then s else
    let s := if groupReserved s h then
        raiseOnceStep s (slabSource u.slab) Ev.reservedWrite (2 ^ 33 + u.d.group)
          (pack [(3, 7), (21, (smpPair s 0x040048 + 64 * u.d.group) / 4)]) else s
    raiseOnceStep s (slabSource u.slab) Ev.scheduleInvalid u.d.group (pack [(6, u.d.group)])
  let copies := [u.d.c, u.d.t].filterMap (u.ctx? s)
  let want := fun (c : Ctx) => rungRound s (streamOf s c.stream) 2
  let s := if u.d.stoch && (u.key s u.d.portS).isNone then
      noteUndeclared s (slabSource u.slab) u.run.passage 3 u.slab u.d.portS else s
  if copies.any want && (u.key s u.d.portC).isNone then
    noteUndeclared s (slabSource u.slab) u.run.passage 3 u.slab u.d.portC else s

/-- An update ends with what it counted, its values in element order (R226, R233). -/
def updDone (s : State) (sl : Slot) (u : UpdRun) (vals : List (Nat × Nat)) (sat : Nat) : State :=
  let qs := quantities ((List.range (u.d.rows * u.d.cols)).filterMap (fun e => List.lookup e vals)) 0 sat
  let words := if u.d.summ then
      ((List.range 6).filter (fun i => bitAt u.d.smask i)).map (fun i => BitVec.ofNat 32 (min u32max (qs.getD i 0))) else []
  setOpKind s sl.op (.run u.slab sl.laneMask u.d.regs sl.descIndex true words u.d.sdest (qs.getD 3 0) (qs.getD 4 0) (qs.getD 5 0))
/-- Run an update from tile `start` on. A bad row list makes it a no-op that finishes at once (R217, R241); one RUN raises `ve_bound`
once, however often it is retried. `vals` and `sat` are those of the tiles before `start`. -/
def performUpdate (s : State) (sl : Slot) (start : Nat) (vals : List (Nat × Nat)) (sat : Nat) (badTile : Option Nat) : State :=
  let u := sl.updRun s
  let src := slabSource u.slab
  let s := noteVer s u.d.tensor
  if !verOk s u.d.tensor then updDone (raiseOpen s 2 Ev.versionInvalid) sl u [] 0
  else
    let short := u.d.embed && rowListOut s u
    let s := if short then raiseOnceStep s src Ev.veBound (2 ^ 35 + sl.op) (BitVec.ofNat 24 sl.descIndex) else s
    match if u.d.embed then rowList s u else some [] with
    | none => finishOp (updStop (notePassage s src Ev.veInvalid sl.passage (BitVec.ofNat 24 sl.descIndex)) u) sl.op
    | some l =>
      let rows := if u.d.embed then some l else none
      let s := markUpdating (noteUpdate s u) u.d.tensor
      let ws := (updWords s sl.passage u.d).take u.d.plen
      let q := updTiles s u ws rows badTile ((List.range (u.tiles - start)).map (· + start)) ⟨s, vals, sat, l.any (fun r => decide (u.d.rows ≤ r))⟩
      let v := q.1.st
      let v := if q.1.out then raiseOnceStep v src Ev.veBound (2 ^ 35 + sl.op) (BitVec.ofNat 24 sl.descIndex) else v
      match q.2 with
      | none => updDone v sl u q.1.vals q.1.sat
      | some t =>
        let blk := u.block t
        let v := raise v src Ev.updateUncorrectable (BitVec.ofNat 24 (blk.1 % 4096 * 2 ^ 12 + blk.2 % 4096))
        let v := updStop v u
        { v with psc := { v.psc with stopIssue := true },
                 ras := { v.ras with
                   updVals := q.1.vals, updSat := q.1.sat,
                   updFail := some { slot := sl, slab := u.slab, tensor := u.d.tensor, brow := blk.1, bcol := blk.2, tile := t } } }

/-- The checks of an update slot at issue (R232). -/
def updValid (s : State) (sl : Slot) : Bool :=
  decide (sl.descIndex < (pentry s sl.passage).ndesc) &&
    (UpdDesc.ofBytes (descBytes s sl.passage sl.descIndex)).ok s (sl.index - 64) sl.passage sl.laneMask
def noteUpd (s : State) (sl : Slot) : State :=
  let d := UpdDesc.ofBytes (descBytes s sl.passage sl.descIndex)
  let src := slabSource (sl.index - 64)
  let s := if d.reserved then reservedRead s src ((pentry s sl.passage).desc + 64 * sl.descIndex) else s
  let s := if decide (sl.descIndex < (pentry s sl.passage).ndesc) && d.plen != 0 && decide (d.plen ≤ 32) then
    noteProg s (sl.index - 64) sl.passage d.prog d.plen (updWords s sl.passage d) else s
  if !updValid s sl then notePassage s src Ev.veInvalid sl.passage (BitVec.ofNat 24 sl.descIndex)
  else if !d.ctxsOk s sl.passage then noteContext s sl.passage else s

/-- `n` rows of `cols` elements of a context, in the format of its stream. -/
def ctxRows (s : State) (slab : Nat) (c : Ctx) (n cols : Nat) : List Span :=
  (List.range n).map (fun (i : Nat) => c.span slab i 0 cols (fmtNibs (streamOf s c.stream).fmt))
/-- What an update writes: of each tile that it acts on, the rows that it visits; a masked tile only where the version keeps a copy
(R123, R239, R240). -/
def updWrites (s : State) (sl : Slot) : List Span :=
  let u := sl.updRun s
  let d := u.d
  let stash := verStash s d.tensor
  let listed := if d.embed then rowList s u else some (List.range d.rows)
  if !verOk s d.tensor then [] else
  match listed with
  | none => []
  | some l =>
    let tiles := (List.range u.tiles).filter (fun t => !u.tileOff s t)
    let rowsOf := fun (t : Nat) => l.filter (fun r => decide (r / 256 = t / u.bcols) && decide (r < d.rows))
    let col := fun (t : Nat) => 256 * (t % u.bcols)
    let cols := fun (t : Nat) => min 256 (d.cols - 256 * (t % u.bcols))
    let one := fun (ts : List Nat) (i : Nat) => match u.ctx? s i with
      | none => []
      | some c => ts.flatMap (fun t => (rowsOf t).map (fun (r : Nat) => c.span u.slab r (col t) (cols t) (fmtNibs (streamOf s c.stream).fmt)))
    let across := fun (ts : List Nat) (i : Nat) => match u.ctx? s i with
      | none => []
      | some c => ts.flatMap (fun t => (rowsOf t).flatMap (fun r =>
          (List.range (cols t)).map (fun (j : Nat) => c.span u.slab (col t + j : Nat) r 1 (fmtNibs (streamOf s c.stream).fmt))))
    let copied := if stash = 0 then tiles else List.range u.tiles
    let counts := match u.ctx? s d.sc with
      | none => []
      | some c => ((tiles.flatMap rowsOf).eraseDups).map (fun r => byteSpan u.slab c.part (c.offset + 4 * r) 4)
    d.ms.flatMap (one tiles) ++ one (if d.c = 0xFF then copied else tiles) d.wo ++ one copied d.c ++ across copied d.t ++ counts
/-- What an update reads: its gradient, weight and moments, and the row list and step counts of an embedding. -/
def updReadSpans (s : State) (sl : Slot) : List Span :=
  let u := sl.updRun s
  let of := fun (i : Nat) (f : Ctx → List Span) => match u.ctx? s i with | some c => f c | none => []
  ([u.d.g, u.d.w] ++ u.d.ms).flatMap (fun i => of i (fun c => ctxRows s u.slab c u.d.rows u.d.cols)) ++
    of u.d.r (fun c => [byteSpan u.slab c.part c.offset (4 + 4 * u.d.rows)]) ++
    of u.d.sc (fun c => [byteSpan u.slab c.part c.offset (4 * u.d.rows)])
/-- Start an update RUN, or go on with one that is retried from its failing tile (R334). -/
def startUpdate (s : State) (sl : Slot) (badTile : Option Nat) : State :=
  let u := sl.updRun s
  let v := getVe s u.slab
  let s := setVe s u.slab { v with groups := v.groups ||| BitVec.ofNat 4 sl.laneMask, regs := v.regs ||| BitVec.ofNat 6 u.d.regs,
                                   runWait := 0, ownerLast := false }
  match s.ras.updFrom.filter (fun x => x.1 == sl.op) with
  | some x => performUpdate { s with ras := { s.ras with updFrom := none } } sl x.2 s.ras.updVals s.ras.updSat badTile
  | none =>
    performUpdate (addOp s (sl.toOp (.run u.slab sl.laneMask u.d.regs sl.descIndex false sl.scalars u.d.sdest 0 0 0) (updWrites s sl))) sl 0 [] 0 badTile

/-- An update that writes anything waits on a version that tokens still hold (R133). -/
def updateHold (s : State) (sl : Slot) : Option Nat :=
  let u := sl.updRun s
  if verOk s u.d.tensor && (verHeldTag s u.d.tensor).isSome &&
      (verStash s u.d.tensor != 0 || !(List.range u.tiles).all (u.tileOff s)) then some 12 else none

def execVeUpdate (slab : Fin 8) (badTile : Option Nat) (s : State) : Result :=
  match takeSlot s (fun sl => sl.veSlot slab.val && sl.veKind s == 6) with
  | some (sl, t) => .next (startUpdate t sl badTile)
  | none => .next s

end Sys2Proof.Machine
end

