-- ==== Sys2Proof/Machine/Rope.lean ====
section
/-! DEFINITION. The rope: SEND slots, tokens, tiles passing from slab to slab, holds, roped fetches (R286 to R290). -/

namespace Sys2Proof.Machine

/-! Descriptors (R287). -/

structure RopeDesc where
  kind  : Nat
  hops  : Nat
  spart : Nat
  dpart : Nat
  sslot : Nat
  dslot : Nat
  tiles : Nat
  reserved : Bool
  deriving DecidableEq, Repr

def RopeDesc.ofBytes (b : List Byte) : RopeDesc :=
  { kind := fieldAt b 0 1, hops := fieldAt b 1 1, spart := fieldAt b 2 1, dpart := fieldAt b 3 1, sslot := fieldAt b 4 2,
    dslot := fieldAt b 6 2, tiles := fieldAt b 8 2, reserved := !allZero (slice b 0xA 0x40) }

/-- Receiving slabs of a send from a slab, in order. -/
def ropePath (slab h : Nat) : List Nat := (List.range h).map (fun i => (slab + i + 1) % 8)
def RopeDesc.ok (s : State) (slab : Nat) (d : RopeDesc) : Bool :=
  let win := fun (sl part slot : Nat) => decide ((slot + d.tiles) * 65536 ≤ windowBytes s sl part)
  !d.reserved && d.kind == 1 && decide (1 ≤ d.hops) && decide (d.hops ≤ 7) && decide (1 ≤ d.tiles) && decide (d.tiles ≤ 512) &&
    (ropeLoop s || decide (slab + d.hops ≤ 7)) && (List.range d.hops).all (fun i => ropeHop s ((slab + i) % 8)) &&
    win slab d.spart d.sslot && (ropePath slab d.hops).all (fun r => decide (r < s.slabs) && win r d.dpart d.dslot)
def Slot.rope (s : State) (sl : Slot) : RopeDesc := RopeDesc.ofBytes (descBytes s sl.passage sl.descIndex)
def sendValid (s : State) (sl : Slot) : Bool :=
  decide (sl.descIndex < (pentry s sl.passage).ndesc) && (sl.rope s).ok s (sl.index - 80)
def noteSend (s : State) (sl : Slot) : State :=
  let slab := sl.index - 80
  let s := if decide (sl.descIndex < (pentry s sl.passage).ndesc) && (sl.rope s).reserved then reservedRead s (slabSource slab) ((pentry s sl.passage).desc + 64 * sl.descIndex) else s
  if sendValid s sl then s else notePassage s (slabSource slab) Ev.ropeInvalid sl.passage (BitVec.ofNat 24 sl.descIndex)

/-! Tokens and holds (R286, R288, R290). -/

def hopTiles (s : State) (h : Nat) : List RopeTile := Tab.get [] s.rope.hops h
def hopWaiting (s : State) (h : Nat) : List RopeTile := Tab.get [] s.rope.waiting h
/-- A tile that enters the rope may take a token of a hop. -/
def mayEnter (s : State) (h : Nat) : Bool := decide ((hopTiles s h).length + (if ropeLoop s then 2 else 1) ≤ 4)
/-- A tile in transit may take a token of a hop. -/
def mayPass (s : State) (h : Nat) : Bool := decide ((hopTiles s h).length < 4)

/-- Waiting tiles of a hop take tokens, at most `n` of them. -/
def enterTiles (s : State) (h : Nat) : Nat → State
  | 0 => s
  | n + 1 =>
    match hopWaiting s h with
    | t :: rest =>
      if mayEnter s h then
        enterTiles (unitOut { s with rope := { s.rope with hops := s.rope.hops.put h (hopTiles s h ++ [t]),
                                                            waiting := s.rope.waiting.put h rest } } 4 1) h n
      else s
    | [] => s

/-- A tile has waited at a hop for more than 1 ms. -/
def holdTimeout (s : State) (h : Nat) : State :=
  if s.rope.holding.getLsbD h || ((hopTiles s h).isEmpty && (hopWaiting s h).isEmpty) then s
  else raise { s with rope := { s.rope with holding := setBit s.rope.holding h true,
                                            since := s.rope.since.put h (s.clock.ts - 1000000) } } (slabSource h) Ev.ropeHold
    (pack [(3, h)])

/-! The rope's part in a fetch (R289): its tiles wait to enter at slab 0. -/

/-- The bytes of a staging slot; unwritten ones are carried as such. -/
def slotBytes (s : State) (slab part slot : Nat) : List (Option Byte) :=
  (List.range 65536).map (fun i => s.staging.bytes.byte? (stKey slab part (65536 * slot + i)))
def ropeFetch (s : State) (p i : Nat) (e : REntry) : State :=
  let reach := ropeReach (liveImg s) (passVariant s p) s.slabs
  if reach = 0 then { s with psc := { s.psc with satisfied := (p, i) :: s.psc.satisfied } } else
  let tiles := ((List.range e.slots.length).zip e.slots).map (fun x =>
    ({ owner := .fetch p i, left := reach, dpart := e.part, dslot := x.2, bytes := slotBytes s 0 e.part x.2,
       last := x.1 + 1 == e.slots.length } : RopeTile))
  enterTiles { s with rope := { s.rope with waiting := s.rope.waiting.put 0 (Tab.get [] s.rope.waiting 0 ++ tiles) } } 0 4

/-! Sends and arrivals. -/

def doSend (s : State) (sl : Slot) : State :=
  let d := sl.rope s
  let slab := sl.index - 80
  let tiles := (List.range d.tiles).map (fun j =>
    ({ owner := .move sl.op, left := d.hops, dpart := d.dpart, dslot := d.dslot + j, bytes := slotBytes s slab d.spart (d.sslot + j),
       last := j + 1 == d.tiles } : RopeTile))
  let s := addOp s (sl.toOp (.send slab d.tiles) ((ropePath slab d.hops).map (fun r =>
    byteSpan r d.dpart (65536 * d.dslot) (65536 * d.tiles))))
  enterTiles { s with rope := { s.rope with waiting := s.rope.waiting.put slab (hopWaiting s slab ++ tiles) } } slab 4

/-- The passage a tile is written for, whether its space is taken from a prefetch's credits, and whether it is still
wanted: what a returned prefetch sent is discarded (R203). -/
def tileOwner (s : State) (t : RopeTile) : Nat × Bool × Bool :=
  match t.owner with
  | .fetch p _ => match allocOf s (allocKey 0 t.dpart t.dslot) with
    | some a => (p, a.spec, a.holders.contains p)
    | none => (p, false, false)
  | .move op => match findOp s op with
    | some o => (o.passage, false, true)
    | none => (0, false, false)
  | _ => (0, false, false)

/-- Write a tile's bytes; the unwritten ones of its source stay unwritten. -/
def writeTile (s : State) (slab : Nat) (t : RopeTile) : State :=
  let k := stKey slab t.dpart (65536 * t.dslot)
  { s with staging := { s.staging with bytes := ((List.range t.bytes.length).zip t.bytes).foldl (fun m ib =>
    match ib.2 with
    | some b => m.setByte (k + ib.1) b
    | none => m.filter (fun kv => kv.1 != k + ib.1)) s.staging.bytes } }

/-- Take the tile's slot at the receiver, if it is wanted, in the order of its stream's allocations (R279, R280, R286); the answer says
whether the tile is dealt with, or must wait. -/
def placeTile (s : State) (slab : Nat) (t : RopeTile) : State × Bool :=
  let o := tileOwner s t
  if !o.2.2 then (s, true)
  else if o.2.1 then
    match allocate s slab t.dpart [t.dslot] o.1 true false with
    | some u => (writeTile u slab t, true)
    | none => (s, false)
  else
    let q := holdSlot s slab t.dpart t.dslot o.1
    if q.2 then (writeTile q.1 slab t, true) else q

/-- The last tile has been written at the last slab. -/
def tileEnd (s : State) (t : RopeTile) : State :=
  if !t.last then s else
  match t.owner with
  | .fetch p i => if (tileOwner s t).2.2 then refresh { s with psc := { s.psc with satisfied := (p, i) :: s.psc.satisfied } } else s
  | .move op => finishOp s op
  | _ => s

/-- The oldest tile of a hop arrives at its receiver. -/
def tileArrive (s : State) (h : Nat) : State :=
  match hopTiles s h with
  | [] => s
  | t :: rest =>
    let r := (h + 1) % 8
    if decide (1 < t.left) && !mayPass s r then s else
    let q := placeTile s r t
    if !q.2 then q.1 else
      let u := endHold q.1 h
      let u := unitBack { u with rope := { u.rope with hops := u.rope.hops.put h rest } } 4 1
      let u := if 1 < t.left then
          unitOut { u with rope := { u.rope with hops := u.rope.hops.put r (hopTiles u r ++ [{ t with left := t.left - 1 }]) } } 4 1
        else tileEnd u t
      enterTiles u h 4

/-- A SEND waits until its first tile can take a token. -/
def sendHold (s : State) (sl : Slot) : Option Nat :=
  let slab := sl.index - 80
  if (hopWaiting s slab).isEmpty && mayEnter s slab then none else some 10

/-! Meanings. -/

def execSend (slab : Fin 8) (s : State) : Result :=
  match takeSlot s (fun sl => sl.index == 80 + slab.val && sl.opcode == 1) with
  | some (sl, t) => .next (doSend t sl)
  | none => .next s
def execRopeTileArrive (hop : Fin 8) (s : State) : Result := .next (tileArrive s hop.val)
def execRopeHoldTimeout (hop : Fin 8) (s : State) : Result := .next (holdTimeout s hop.val)

end Sys2Proof.Machine
end

