-- ==== Sys2Proof/Machine/Collective.lean ====
section
/-! DEFINITION. The collective port: FRAME and STATS slots, received frames, owner windows, the dense tree, the gather,
statistics and outcome, deadlines, transmit and receive credits, lanes (R249 to R267, R330). -/

namespace Sys2Proof.Machine

/-! Slots (R250). -/

/-- Events of a slot whose descriptor or context fails (R192, R217, R250). -/
def noteColl (s : State) (sl : Slot) : State :=
  let s := if collListed s sl && (sl.coll s).reserved then
      reservedRead s 5 ((pentry s sl.passage).desc + 64 * sl.descIndex) else s
  if !collValid s sl then notePassage s 5 Ev.collectiveInvalid sl.passage (BitVec.ofNat 24 sl.descIndex)
  else if !collCtxOk s sl then noteContext s sl.passage else s

/-! Owned tiles (R247, R256). -/

/-- Tiles of a tensor that a member owns, by tile index. -/
def ownedTiles (h : RGroup) (x : GTensor) (member : Nat) : List Nat :=
  (List.range x.tiles).filter (fun t => (x.base + t) % h.size == member)
def tileDone (s : State) (g : Nat) (x : GTensor) (t : Nat) : Bool :=
  s.rlp.done.contains (g, x.base + t) || tileMasked s x t
/-- Every tile this rank owns in every valid group is complete, and written to its place (R256, R260). -/
def ownedComplete (s : State) : Bool :=
  !s.bmp.jobs.any (fun j => j.kind == .put none) && s.rlp.groups.all (fun g => let h := rgroup s g
    (gtensors s h).all (fun x => (ownedTiles h x h.self_).all (tileDone s g x)))
def windowOf (s : State) (g u : Nat) : Option Window := s.rlp.windows.find? (fun w => w.group == g && w.u == u)

/-- Why a collective slot cannot be accepted (R248, R250, R260). -/
def collHold (s : State) (sl : Slot) : Option Nat :=
  if sl.opcode = 0 ∨ !collValid s sl then none
  else if sl.opcode = 2 then
    if allDone s (· != 4) (some sl.passage) && ownedComplete s && queueRoom s (sl.index - 96) then none else some 11
  else if groupValid s (sl.coll s).group && queueRoom s (sl.index - 96) then none else some 11

/-! Received frames (R255). -/

/-- The version a group's frames carry (R253). -/
def groupFver (s : State) (h : RGroup) : Nat :=
  if !h.sparse && (List.range h.size).any (fun i => memberVer s h i == 1) then 1 else 2
/-- The position of a member in the tree of a tile, and the highest level it hosts (R258). -/
def treePos (h : RGroup) (u member : Nat) : Nat := (member + h.size - u % h.size) % h.size
def twoPower (j : Nat) : Nat := ((List.range 17).find? (fun i => bitAt j i)).getD 17
def treeTop (h : RGroup) (j : Nat) : Nat := if j = 0 then log2Up h.size else twoPower j

/-- Payload bytes that a statistics fragment takes, 0 for one past the range; none where the range is not known. -/
def fragBytes (s : State) (i : Nat) : Option Nat :=
  match s.rlp.range with
  | some (f, n) => if fragCount n ≤ i then some 0 else some (364 * (fragRange f n i).2 + (if i = 0 then 8 else 0))
  | none => none
/-- A payload of that length is a fragment: of the range once it is known, else of one to 1,024 streams (R255, R260). -/
def fragFits (s : State) (i len : Nat) : Bool :=
  let tail := if i = 0 then 8 else 0
  match fragBytes s i with
  | some n => len == n && n != 0
  | none => len % 364 == tail && decide (364 + tail ≤ len) && decide (len ≤ 364 * 1024 + tail)

/-- A statistics, abort or outcome frame agrees with this rank (R253, R254, R260). -/
def sysAgrees (s : State) (f : Frame) : Bool :=
  let i := f.tile % 4
  f.fver == 2 && f.dst == rlpRank s && f.cfg == sysCfg s && f.fmt == 0 &&
    (if f.typ = 6 then !isRoot s && f.src == treeParent s else (treeChildren s).contains f.src) &&
    (if f.typ = 4 then fragFits s i f.payload.length
     else if f.typ = 5 then f.payload.isEmpty
     else if f.typ = 6 then
       (fieldAt f.payload 0 1 == 0 && f.payload.length == 4) ||
         (fieldAt f.payload 0 1 == 1 && decide (4 ≤ f.payload.length) && fragFits s i (f.payload.length - 4))
     else false)
/-- A sparse, dense or gather frame agrees with this rank's copy of the tables. -/
def groupAgrees (s : State) (f : Frame) : Bool :=
  let h := rgroup s f.group
  let x := gtensor s h f.tensor
  let u := x.base + f.tile
  let len := f.payload.length
  let j := treePos h u f.src
  groupValid s f.group && f.fver == groupFver s h && f.dst == h.self_ && decide (f.src < h.size) && f.cfg == h.cfg &&
    decide (f.tensor < h.ntensors) && decide (f.tile < x.tiles) &&
    (if f.typ = 1 then
       let fm := (streamOf s x.gstream).fmt
       let n := fieldAt f.payload 0 4
       h.sparse && u % h.size == h.self_ && f.fmt == fm && decide (n ≤ h.kmax) && decide (4 ≤ len) &&
         len == 4 + n * (2 + listBytes fm)
     else if f.typ = 2 then
       !h.sparse && f.fmt == 9 && len == 262144 && j != 0 && f.level == twoPower j &&
         treePos h u h.self_ == j - 2 ^ twoPower j
     else if f.typ = 3 then fmtValid f.fmt && len == 8192 * fmtBits f.fmt && decide (f.level < 2) && u % h.size == f.src
     else false)
def frameAgrees (s : State) (f : Frame) : Bool := if f.group = 0xFF then sysAgrees s f else groupAgrees s f

/-- The frame's reserved buffer has room: one list per member, one partial per tree child, one statistics fragment per
child until this rank merges, and a pool of eight for gather tiles, which drains into host memory (R255). -/
def frameRoom (s : State) (f : Frame) : Bool :=
  if f.typ = 1 then !s.rlp.fbuf.any (fun b => b.typ == 1 && b.group == f.group && b.src == f.src)
  else if f.typ = 2 then !s.rlp.fbuf.any (fun b => b.typ == 2 && b.group == f.group && b.level == f.level)
  else if f.typ = 3 then decide ((s.rlp.fbuf.filter (fun b => b.typ == 3)).length < 8)
  else if f.typ = 4 then !s.rlp.ownFrag.isEmpty || !s.rlp.fbuf.any (fun b => b.typ == 4 && b.src == f.src)
  else true
/-- System rank and block of a frame the mask masks (R124). -/
def maskPayload (rank brow bcol : Nat) : BitVec 24 := pack [(16, rank), (12, brow), (12, bcol)]
/-- A frame for a tile that this rank masks. DESIGN CHOICE: the rule speaks of the owner; a gather tile, and a partial on its way through
the tree, are discarded with the same event (R124, log 118). -/
def maskedFrame (s : State) (f : Frame) : Bool :=
  f.group != 0xFF && tileMasked s (gtensor s (rgroup s f.group) f.tensor) f.tile
def noteMaskedFrame (s : State) (f : Frame) : State :=
  let h := rgroup s f.group
  let x := gtensor s h f.tensor
  raise s 5 Ev.maskMismatch (maskPayload (memberRank s h f.src) (f.tile / x.bcols) (f.tile % x.bcols))

/-! Statistics, abort notices and outcomes (R260, R261). -/

/-- Fragment `i` as its frame's payload holds it. -/
def readFrag (s : State) (i : Nat) (b : List Byte) : Fragment :=
  let n := (b.length - (if i = 0 then 8 else 0)) / 364
  match s.rlp.range with
  | some (f, _) => Fragment.ofBytes (f + 1024 * i) n i b
  | none => Fragment.ofBytes (1024 * i) n i b
def putChild (s : State) (f : Frame) : State :=
  let i := f.tile % 4
  { s with rlp := { s.rlp with childFrag := s.rlp.childFrag.put (f.src * 4 + i) (readFrag s i f.payload) } }
def takeStats (s : State) (f : Frame) : State :=
  if s.rlp.ownFrag.isEmpty then bufferFrame s f else rootTry (putChild s f)
/-- The outcome is not decided yet on this rank. -/
def undecided (s : State) : Bool := !s.psc.committed && s.rlp.outFrag.isEmpty && !s.ras.lostWait && !s.psc.abortDue

def takeNotice (s : State) : State :=
  if isRoot s then (if undecided s then rootAbort s else s)
  else if s.rlp.notice then s
  else queueFrame { s with rlp := { s.rlp with notice := true } } 0 0 (sysFrame s 5 (treeParent s) 0 [])

/-- Forward an outcome frame to the children, then act on it. -/
def takeOutcome (s : State) (f : Frame) : State :=
  let i := f.tile % 4
  let s := sendOutcome s i f.payload
  if s.psc.committed || s.ras.lostWait || s.psc.abortDue then s
  else if fieldAt f.payload 0 1 = 0 then abortWhenDone s
  else tryCommit { s with rlp := { s.rlp with outFrag := s.rlp.outFrag.put i (readFrag s i (f.payload.drop 4)) } }

/-- Take a frame that has passed the checks; its tensor's mask is read (R14, R124). -/
def acceptFrame (s : State) (f : Frame) : State :=
  let s := if f.group = 0xFF then s else noteMask s (gtensor s (rgroup s f.group) f.tensor).mask
  if maskedFrame s f then noteMaskedFrame s f
  else if f.typ = 1 ∨ f.typ = 2 then bufferFrame s f
  else if f.typ = 3 then
    let s := bufferFrame s f
    gatherWritten (writeGather s (gtensor s (rgroup s f.group) f.tensor) f) (gatherKey f.group f.tensor f.tile f.level)
  else if f.typ = 4 then takeStats s f
  else if f.typ = 5 then takeNotice s
  else takeOutcome s f

/-- The checks of R255 after the CRC, in order; the answer says whether the frame is nacked. -/
def deliver (s : State) (f : Frame) : State × Bool :=
  if f.step % 2 ^ 40 ≠ s.psc.step.toNat ∨ f.attempt ≠ s.psc.attempt.toNat then
    ({ s with rlp := { s.rlp with stale := satAdd s.rlp.stale 1 } }, false)
  else if !frameAgrees s f then (raiseOnceStep s 5 Ev.frameMismatch 0 (pack [(6, f.group), (16, f.src)]), false)
  else
    let k := seqKey f.group f.src
    let next := Tab.get 0 s.rlp.expect k
    if f.pseq < next then (s, false)
    else if next < f.pseq || !frameRoom s f then (s, true)
    else (acceptFrame { s with rlp := { s.rlp with expect := s.rlp.expect.put k (next + 1) } } f, false)

/-! Retirement of a channel (R328, R330, R332). -/

/-- Frames of a retired channel go out on the other one, the one in flight from its first beat. -/
def retireRlp (s : State) (ch : Nat) : State :=
  let c := getRlp s ch
  if c.retired then s else
  let n := c.tx + c.txOut + c.rx
  let mine := c.queue.map (fun x => (ch, x.1, x.2)) ++ s.rlp.backlog.filter (fun x => x.1 == ch)
  let lanes := s.rlp.lanes &&& (if ch = 0 then 0xFFFF0000 else 0x0000FFFF)
  let s := setRlp s ch { RlpChan.reset with retired := true, dest := c.dest, resp := c.resp }
  let other := rlpServes s (1 - ch)
  let moved := if other then mine.map (fun x => (1 - ch, x.2)) else mine
  let s := { s with rlp := { s.rlp with lanes := lanes, reclaimed := satAdd s.rlp.reclaimed n,
                                        backlog := s.rlp.backlog.filter (fun x => x.1 != ch) ++ moved },
                    ras := { s.ras with excused := 1 :: s.ras.excused },
                    life := { s.life with acc := { s.life.acc with
                      retires := s.life.acc.retires.upd 0 (64 + ch) (fun x => satAdd x 1) } } }
  let s := raise (unitReclaim s 1 (c.txOut + c.rx)) 6 Ev.creditsReclaimed (BitVec.ofNat 24 (2 ^ 20 + n % 2 ^ 20))
  if other then refillQueue s (1 - ch) else s

/-- A lane falls after negotiation. -/
def laneDown (s : State) (lane : Nat) : State :=
  let s := { s with pins := { s.pins with laneUp := setBit s.pins.laneUp lane false } }
  if !s.rlp.lanes.getLsbD lane then s else
  let ch := lane / 16
  let s := { s with rlp := { s.rlp with lanes := setBit s.rlp.lanes lane false },
                    life := { s.life with acc := { s.life.acc with
                      retires := s.life.acc.retires.upd 0 (66 + lane) (fun x => satAdd x 1) } } }
  let s := raise s 5 Ev.laneRetired (BitVec.ofNat 24 (ch * 2 ^ 23 + lane))
  if fld s.rlp.lanes.toNat (16 * ch + 15) (16 * ch) = 0 then retireRlp s ch else s

/-- A frame nacked for its CRC or `rlp_rx_err` counts against its channel. -/
def rlpFault (s : State) (ch : Nat) : State :=
  let r := transient s 1 ch
  if r.2 then retireRlp r.1 ch else r.1

/-- The response to a received frame: a nack, or an acknowledgement (R264, R266). -/
def respond (s : State) (ch : Nat) (nack : Bool) : State := setRlp s ch { getRlp s ch with resp := some nack }
/-- `reserved_write` for a received frame: a structure read whose address, of a frame buffer, is open (R14, R306, R308, log 32). -/
def frameReserved (s : State) : State :=
  bumpFree (raise s 5 Ev.reservedWrite (pack [(3, 7), (21, (Config.openPayload Ev.reservedWrite s.freeCtr).toNat % 2 ^ 21)]))
/-- A frame arrives on a channel in a command for frames of one type. A type that no frame has is met by the third check
whichever command carries it; a frame of another type does not come by this command (log 10). -/
def receive (s : State) (ch : Nat) (err : Bool) (bytes : List Byte) (typ : Nat) : State :=
  let f := Frame.ofBytes bytes
  if s.boot.rlpVer = 0 || !rlpServes s ch then s
  else if f.typ ≠ typ ∧ 1 ≤ f.typ ∧ f.typ ≤ 6 ∧ !err ∧ frameCrcOk bytes then s
  else
    let n := ceilDiv bytes.length 512
    let s := unitOut (unitBack s 1 n) 1 n
    if err || !frameCrcOk bytes then rlpFault (respond s ch true) ch
    else
      let s := if f.reserved then frameReserved s else s
      let r := deliver s f
      respond r.1 ch r.2

/-! Loopback (R251): frames to this rank wait in order and never enter the port. -/

/-- Deliver waiting frames to this rank until one is refused. -/
def pumpLoop (s : State) : Nat → State
  | 0 => s
  | n + 1 =>
    match takeFirst (fun (x : Nat × Nat × Frame) => x.1 == 2) s.rlp.backlog with
    | some (x, rest) =>
      let r := deliver s x.2.2
      if r.2 then s else pumpLoop { r.1 with rlp := { r.1.rlp with backlog := rest } } n
    | none => s
def pumpAll (s : State) : State := pumpLoop s s.rlp.backlog.length
/-- Number a frame of a group and send it on, or loop it back. -/
def sendFrame (s : State) (h : RGroup) (ch op : Nat) (f : Frame) : State :=
  if f.dst = h.self_ then
    let k := seqKey f.group f.dst
    let n := Tab.get 0 s.rlp.sent k
    { s with rlp := { s.rlp with sent := s.rlp.sent.put k (n + 1),
                                 backlog := s.rlp.backlog ++ [(2, op, { f with pseq := n })] } }
  else queueFrame s ch op f

/-! FRAME slots (R251, R258, R259). -/

def groupFrame (s : State) (h : RGroup) (typ g dst tensor tile fmt level : Nat) (payload : List Byte) : Frame :=
  { typ := typ, fver := groupFver s h, group := g, attempt := s.psc.attempt.toNat, src := h.self_, dst := dst,
    step := s.psc.step.toNat, pseq := 0, tile := tile, tensor := tensor, fmt := fmt, level := level, cfg := h.cfg,
    payload := payload }
/-- Bytes of a source; those beyond the partition's window are unspecified. -/
def sourceBytes (s : State) (slab part off n : Nat) : List Byte :=
  (List.range n).map (fun i =>
    if off + i < windowBytes s slab part then stByte s (stKey slab part (off + i))
    else Config.staleByte s.staging.epoch (2 ^ 40 + off + i))
/-- The rows of full tile `i` of a slot, packed. -/
def sourceTile (s : State) (slab : Nat) (c : Ctx) (i fmt : Nat) : List Byte :=
  (List.range 256).flatMap (fun r => sourceBytes s slab c.part (c.offset + (256 * i + r) * c.pitch) (32 * fmtBits fmt))

/-- A FRAME slot as it acts: descriptor, group, tensor, channel, operation. -/
structure FrameRun where
  d  : CollDesc
  h  : RGroup
  x  : GTensor
  c  : Ctx
  ch : Nat
  op : Nat
  deriving DecidableEq, Repr
/-- A frame of the operation enters its channel's queue. -/
def pushFrame (s : State) (r : FrameRun) (f : Frame) : State :=
  let s := if f.dst = r.h.self_ then s else
    match findOp s r.op with
    | some o => match o.kind with
      | .frames ch n g => setOpKind s r.op (.frames ch (n + 1) g)
      | _ => s
    | none => s
  sendFrame s r.h r.ch r.op f

def sparseTile (s : State) (r : FrameRun) (i : Nat) : State :=
  let t := r.d.t0 + i
  if tileMasked s r.x t then s else
  let fm := (streamOf s r.x.gstream).fmt
  let off := r.c.offset + i * r.c.pitch
  let n := leNat (sourceBytes s r.d.slab r.c.part off 4)
  if r.h.kmax < n then raiseOpen s 5 Ev.frameInvalid else
  pushFrame s r (groupFrame s r.h 1 r.d.group ((r.x.base + t) % r.h.size) r.d.tensor t fm 0
    (sourceBytes s r.d.slab r.c.part off (4 + n * (2 + listBytes fm))))

/-- The words of a payload of FP32 values, and back. -/
def toWords (b : List Byte) : List Word := (List.range (b.length / 4)).map (fun i => BitVec.ofNat 32 (fieldAt b (4 * i) 4))
def ofWords (v : List Word) : List Byte := v.flatMap (fun w => leBytes 4 w.toNat)

/-- An owned tile is reduced: converted into rstream's format, to nearest even, and written to its place at dest (R247,
R256, R258). `y` gives the values of the elements within the tensor. -/
def finishTile (s : State) (h : RGroup) (g : Nat) (x : GTensor) (t : Nat) (y : Nat → Dy) : State :=
  let st := streamOf s x.rstream
  let es := (x.inTile t).map (fun rc => ({ key := rc.1 * 256 + rc.2, y := y (rc.1 * 256 + rc.2), r := none } : Elem))
  let out := convertTile st.fmt (sigmaOf s x.rstream) st.checked es
  let s := noteJit (tally (noteStream s x.rstream) false x.rstream out.stat) x.rstream out
  let code := fun (i : Nat) => match List.lookup i out.convs with | some c => c.code | none => zeroCode st.fmt
  let s := putJob s (.put none) (x.dest + ownedBefore h x t * (8192 * fmtBits st.fmt)) (packCodes st.fmt ((List.range 65536).map code))
  { s with rlp := { s.rlp with done := (g, x.base + t) :: s.rlp.done } }

/-- The node value of a tree position has reached its highest level: to the parent position, or to dest. -/
def finishNode (s : State) (h : RGroup) (g tensor : Nat) (x : GTensor) (t : Nat) (vals : List Word) (ch op : Nat) : State :=
  let u := x.base + t
  let j := treePos h u h.self_
  if j = 0 then finishTile s h g x t (fun i => ofF32 (vals.getD i 0).toNat)
  else
    let v := twoPower j
    queueFrame s ch op (groupFrame s h 2 g ((u % h.size + (j - 2 ^ v)) % h.size) tensor t 9 v (ofWords vals))

/-- A leaf of the tree is read once, as its slot acts: a non-finite code counts for the stream of its context and stands for the largest
finite value (R24, R258). DEDUCED (log 78). -/
def denseTile (s : State) (r : FrameRun) (i : Nat) : State :=
  let t := r.d.t0 + i
  if tileMasked s r.x t then s else
  let raw := toWords (sourceTile s r.d.slab r.c i 9)
  let s := tallyNonfin (noteStream s r.c.stream) false r.c.stream
    ((r.x.inTile t).filter (fun rc => nonFinite 9 (raw.getD (rc.1 * 256 + rc.2) 0).toNat)).length
  let vals := raw.map (fun w => BitVec.ofNat 32 (toF32 (ofF32 w.toNat)))
  let u := r.x.base + t
  let j := treePos r.h u r.h.self_
  if treeTop r.h j = 0 then
    let s := if j = 0 then s else match findOp s r.op with
      | some o => match o.kind with
        | .frames ch n g => setOpKind s r.op (.frames ch (n + 1) g)
        | _ => s
      | none => s
    finishNode s r.h r.d.group r.d.tensor r.x t vals r.ch r.op
  else { s with rlp := { s.rlp with dense := s.rlp.dense ++ [{ group := r.d.group, u := u, level := 0, vals := vals }] } }

def gatherTile (s : State) (r : FrameRun) (i : Nat) : State :=
  let t := r.d.t0 + i
  let o := r.d.order
  let fm := (streamOf s r.c.stream).fmt
  let mine := (r.x.base + t) % r.h.size == r.h.self_
  if tileMasked s r.x t then
    if mine then s else keepGather s r.x r.d.group r.d.tensor o fm t
  else if mine then
    let b := sourceTile s r.d.slab r.c i fm
    ((List.range r.h.size).filter (· != r.h.self_)).foldl (fun u m =>
      let f := groupFrame u r.h 3 r.d.group m r.d.tensor t fm o b
      let u := { u with rlp := { u.rlp with gsent := u.rlp.gsent ++ [(r.ch, r.op, f)] } }
      pushFrame u r f) s
  else { s with rlp := { s.rlp with gwant := (r.d.group, r.d.tensor, t, o) :: s.rlp.gwant } }

def doFrames (s : State) (sl : Slot) (tile : State → FrameRun → Nat → State) : State :=
  let d := sl.coll s
  let h := rgroup s d.group
  let r : FrameRun := { d := d, h := h, x := gtensor s h d.tensor, c := ctxOf s sl.passage d.ctx, ch := sl.index - 96, op := sl.op }
  let s := addOp s (sl.toOp (.frames r.ch 0 (if d.kind = 3 ∧ d.waitAll then some d.group else none)) [])
  let s := (List.range d.ntiles).foldl (fun u i => tile u r i) (noteMask s r.x.mask)
  settleGathers (settleFrames (pumpAll s) sl.op)

/-! The STATS slot (R260). -/

def doStats (s : State) (sl : Slot) : State :=
  if !s.rlp.ownFrag.isEmpty then s else
  let b := descBytes s sl.passage sl.descIndex
  let first := fieldAt b 2 2
  let n := fieldAt b 4 4 % 2 ^ 13
  let own := (List.range (fragCount n)).map (fun i => (i, ownFragment s first n i))
  let s := (List.range n).foldl (fun u i => noteStream u (first + i)) s
  let s := { s with rlp := { s.rlp with range := some (first, n), ownFrag := own } }
  let s := addOp s (sl.toOp (.stats (sl.index - 96) (if isRoot s then 0 else fragCount n)) [])
  let held := s.rlp.fbuf.filter (fun f => f.typ == 4)
  let s := held.foldl (fun u f => putChild (dropFrame u f) f) s
  rootTry (settleFrames s sl.op)

/-- The STATS operation that has fragments to send. -/
def statsOp (s : State) : Option (Nat × Nat) :=
  s.psc.ops.findSome? (fun o => match o.kind with | .stats ch _ => some (o.id, ch) | _ => none)
def statsSend (s : State) (i : Nat) : State :=
  if isRoot s || s.rlp.fragSent.length != i then s else
  match mergedFragment s i, statsOp s with
  | some f, some (op, ch) =>
    queueFrame { s with rlp := { s.rlp with fragSent := s.rlp.fragSent ++ [i], statsSent := true } } ch op
      (sysFrame s 4 (treeParent s) i (f.bytes i))
  | _, _ => s

/-! Owner windows (R229, R230, R256). -/

/-- The first tile of a tensor in ascending index that this rank owns and that has neither a window nor an end. -/
def nextTile (s : State) (g : Nat) (h : RGroup) (x : GTensor) : Option Nat :=
  (ownedTiles h x h.self_).find? (fun t => !tileDone s g x t && (windowOf s g (x.base + t)).isNone)
/-- The next tile to get a window: lowest u over the sparse groups. -/
def nextOwned (s : State) : Option (Nat × Nat) :=
  let all := s.rlp.groups.flatMap (fun g => let h := rgroup s g
    if h.sparse then (gtensors s h).filterMap (fun x => (nextTile s g h x).map (fun t => (g, x.base + t))) else [])
  all.foldl (fun (b : Option (Nat × Nat)) k => match b with
    | some y => if k.2 < y.2 then some k else b
    | none => some k) none
/-- The lowest 24 free logical slots of a partition. -/
def freeSlots (s : State) (slab part : Nat) : List Nat :=
  ((List.range (windowBytes s slab part / 65536)).filter (fun x => !held s slab part x)).take 24
def windowIn? (s : State) (slab : Nat) : List Nat → Option (Nat × List Nat × State)
  | [] => none
  | p :: ps =>
    let slots := freeSlots s slab p
    if (partOf s slab p).kind != 3 || slots.length != 24 || s.staging.waits.any (fun w => w.slab == slab && w.part == p) then
      windowIn? s slab ps
    else match allocateFg s slab p slots ownerHolder true 3 with
      | some t => some (p, slots, t)
      | none => windowIn? s slab ps
def windowAllocate (s : State) (slab : Nat) : State :=
  match nextOwned s with
  | some (g, u) =>
    if tileSlab s (rgroup s g) u ≠ slab then s else
    match windowIn? s slab (List.range 32) with
    | some (p, slots, t) =>
      { t with rlp := { t.rlp with windows := t.rlp.windows ++
        [{ group := g, u := u, slab := slab, part := p, slots := slots, count := 0, elems := [] }] } }
    | none => s
  | none => s

/-- Entries of a list: place in the tile, code. -/
def listOf (f : Frame) : List (Nat × Nat) :=
  let w := listBytes f.fmt
  (List.range (fieldAt f.payload 0 4)).map (fun i =>
    (fieldAt f.payload (4 + (2 + w) * i) 2, fieldAt f.payload (6 + (2 + w) * i) w % 2 ^ fmtBits f.fmt))
/-- Add one promoted value into a window element, exactly. -/
def addElem (w : Window) (i : Nat) (p : Promoted) : Window :=
  { w with elems := w.elems.put i (signed 192 (lowBits 192 (Tab.get 0 w.elems i + p.n))) }

def addList (s : State) (h : RGroup) (x : GTensor) (w : Window) (f : Frame) : State :=
  let t := f.tile
  let row := fun (i : Nat) => 256 * (t / x.bcols) + i / 256
  let es := listOf f
  let inside := es.filter (fun e => decide (row e.1 < x.rows) && decide (256 * (t % x.bcols) + e.1 % 256 < x.cols))
  let good := inside.filter (fun e => !rowMasked s x.mask (row e.1))
  let s := if inside.length < es.length then
      raiseOpen s (slabSource w.slab) Ev.frameInvalid else s
  let bad := maskPayload (memberRank s h f.src) (t / x.bcols) (t % x.bcols)
  let s := (inside.filter (fun e => rowMasked s x.mask (row e.1))).foldl (fun u _ => raise u (slabSource w.slab) Ev.maskMismatch bad) s
  let s := tallyNonfin (noteStream s x.gstream) false x.gstream (good.filter (fun e => nonFinite f.fmt e.2)).length
  let sigma := sigmaOf s x.gstream
  let ps := good.map (fun e => (e.1, promote (Dy.scale (decode f.fmt e.2) (-sigma)) x.anchor))
  let s := windowLoss s w.slab (ps.filter (·.2.floorLoss)).length (ps.filter (·.2.saturated)).length
  let v := ps.foldl (fun v p => addElem v p.1 p.2) w
  { s with rlp := { s.rlp with windows := s.rlp.windows.map (fun z =>
    if z.group = w.group ∧ z.u = w.u then { v with count := w.count + 1 } else z) } }

/-- Owner work of a slab takes the idle lane group of lowest index; where a RUN waits for a lane group too, the two are served in turn.
The work is done within its command, so that it leaves the group idle (R256, log 105). -/
def ownerGroup (s : State) (slab : Nat) : Bool :=
  let v := getVe s slab
  (List.range (laneGroups s slab)).any (fun g => !v.groups.getLsbD g && !(v.ownerLast && v.runWait.getLsbD g))
/-- Owner work is served, or waits. -/
def ownerServed (s : State) (slab : Nat) : State := setVe s slab { getVe s slab with ownerWait := false, ownerLast := true }
def ownerWaits (s : State) (slab : Nat) : State := setVe s slab { getVe s slab with ownerWait := true }

/-- The buffered list of a member is added, once its tile has a window. -/
def ownerAdd (s : State) (g member : Nat) : State :=
  match s.rlp.fbuf.find? (fun f => f.typ == 1 && f.group == g && f.src == member) with
  | some f =>
    let h := rgroup s g
    let x := gtensor s h f.tensor
    match windowOf s g (x.base + f.tile) with
    | some w =>
      if ownerGroup s w.slab then pumpAll (dropFrame (addList (ownerServed s w.slab) h x w f) f) else ownerWaits s w.slab
    | none => s
  | none => s

def ownerConvert (s : State) (g u : Nat) : State :=
  let h := rgroup s g
  match windowOf s g u, tileOf s h u with
  | some w, some (_, x, t) =>
    if w.count ≠ h.size then s else
    if !ownerGroup s w.slab then ownerWaits s w.slab else
    let s := ownerServed s w.slab
    let val := fun (i : Nat) => leave (Tab.get 0 w.elems i)
    let sat := ((x.inTile t).filter (fun rc => (val (rc.1 * 256 + rc.2)).2)).length
    let s := finishTile (windowLoss s w.slab 0 sat) h g x t (fun i => totalValue (val i).1 x.anchor)
    let s := w.slots.foldl (fun v k => releaseSlot v (allocKey w.slab w.part k)) s
    { s with rlp := { s.rlp with windows := s.rlp.windows.filter (fun v => v.group != g || v.u != u) } }
  | _, _ => s

/-! The dense tree (R220, R258). -/

def setDense (s : State) (v : DenseVal) (x : Option DenseVal) : State :=
  let rest := s.rlp.dense.filter (fun w => w.group != v.group || w.u != v.u)
  { s with rlp := { s.rlp with dense := match x with | some y => rest ++ [y] | none => rest } }

/-- Saturations of a node's additions count in the slab's counter (R220, log 105). -/
def countTree (s : State) (slab n : Nat) : State := setVe s slab { getVe s slab with sat := satAdd (getVe s slab).sat n }
/-- Add a child's partial, where there is one, in the owner group of a slab (R229, R230). -/
def denseSum (s : State) (slab : Nat) (x : GTensor) (t : Nat) (vals : List Word) (child : Option Frame) : State × List Word :=
  match child with
  | none => (s, vals)
  | some f =>
    let sums := List.zipWith (fun (a b : Word) => add32 a.toNat b.toNat) vals (toWords f.payload)
    let sat := ((x.inTile t).filter (fun rc => match sums[rc.1 * 256 + rc.2]? with | some r => r.sat | none => false)).length
    (countTree (ownerServed (dropFrame s f) slab) slab sat, sums.map (fun r => BitVec.ofNat 32 r.code))
def denseAdd (s : State) (g u level : Nat) : State :=
  let h := rgroup s g
  match s.rlp.dense.find? (fun v => v.group == g && v.u == u), tileOf s h u with
  | some v, some (i, x, t) =>
    let j := treePos h u h.self_
    if level ≠ v.level + 1 ∨ treeTop h j < level then s else
    let child := s.rlp.fbuf.find? (fun f => f.typ == 2 && f.group == g && f.tensor == i && f.tile == t && f.level + 1 == level)
    let slab := tileSlab s h u
    let alone := decide (h.size ≤ j + 2 ^ (level - 1))
    if !alone && child.isNone then s else
    if !alone && !ownerGroup s slab then ownerWaits s slab else
    let q := denseSum s slab x t v.vals (if alone then none else child)
    if level = treeTop h j then finishNode (setDense q.1 v none) h g i x t q.2 0 0
    else setDense q.1 v (some { v with level := level, vals := q.2 })
  | _, _ => s

/-! Deadlines, lost outcomes and peers (R261, R262). -/

def abortNotice (s : State) : State :=
  if !s.rlp.noticeDue || !s.psc.stepOn || s.psc.committed then s
  else
    let s := { s with rlp := { s.rlp with noticeDue := false } }
    if isRoot s then rootAbort s
    else if s.rlp.notice || s.rlp.statsSent then s
    else takeNotice s
def deadlineExpire (s : State) : State :=
  if !s.psc.stepOn || !undecided s || (!isRoot s && s.rlp.statsSent && portServes s) then s else callAbort s
def outcomeTimeout (s : State) : State :=
  if !s.psc.stepOn || isRoot s || !undecided s then s else
  let s := stopArrays { s with psc := { s.psc with stopIssue := true, run := false } } (List.range s.silicon.cls.arrays)
  countLife (raiseOpen { s with rlp := { s.rlp with lost := true }, ras := { s.ras with lostWait := true } } 5 Ev.outcomeLost) 4 1
/-- A group of more than one member counts the rank among its members. -/
def needsRank (s : State) (rank : Nat) : Bool :=
  s.rlp.groups.any (fun g => let h := rgroup s g
    decide (1 < h.size) && (List.range h.size).any (fun i => memberRank s h i == rank))
def peerFail (s : State) (rank : Nat) : State :=
  if !s.psc.stepOn || !needsRank s rank then s
  else if s.psc.committed then
    if s.rlp.groups.all (gatherDone s) && !gatherWrites s && s.rlp.gsent.isEmpty then s else { s with ras := { s.ras with gatherBad := true } }
  else if !undecided s || s.rlp.statsSent then s else callAbort s

/-! Transmission (R265). -/

/-- The system rank a frame goes to, which `rlpN_tx_dest` shows with its first beat (R264). -/
def frameDest (s : State) (f : Frame) : Nat := if f.group = 0xFF then f.dst else memberRank s (rgroup s f.group) f.dst
/-- A frame's last byte has gone out. -/
def frameSent (s : State) (op : Nat) : State :=
  match findOp s op with
  | some o =>
    match o.kind with
    | .frames ch n g => settleFrames (setOpKind s op (.frames ch (n - 1) g)) op
    | .stats ch n => settleFrames (setOpKind s op (.stats ch (n - 1))) op
    | _ => s
  | none => s
def transmit (s : State) (ch : Nat) : State :=
  let c := getRlp s ch
  match c.queue with
  | [] => s
  | (op, f) :: rest =>
    if !rlpServes s ch then s else
    let total := ceilDiv (52 + f.payload.length) 512
    let n := min c.tx (total - c.beats)
    let s := unitOut s 1 n
    let c := { c with tx := c.tx - n, txOut := c.txOut + n, dest := if n = 0 ∨ c.beats ≠ 0 then c.dest else frameDest s f }
    if total ≤ c.beats + n then
      frameSent (refillQueue (setRlp s ch { c with queue := rest, beats := 0 }) ch) op
    else setRlp s ch { c with beats := c.beats + n }
/-- A transmit-credit pulse: it returns a spent credit, or grants one (R265, R338). In reset there is no port to take it (R313). -/
def txCredit (s : State) (ch : Nat) : State :=
  let c := getRlp s ch
  if c.retired || s.boot.stage = 0 then s else
  let t := setRlp s ch { c with tx := c.tx + 1, txOut := c.txOut - 1 }
  if 0 < c.txOut then unitBack t 1 1 else t

/-! Meanings. -/

/-- The first accepted slot is a FRAME of a kind on a channel. -/
def Slot.isFrame (s : State) (ch kind : Nat) (sl : Slot) : Bool :=
  sl.index == 96 + ch && sl.opcode == 1 && (sl.coll s).kind == kind
def frameSlot (s : State) (ch kind : Nat) (tile : State → FrameRun → Nat → State) : State :=
  match takeSlot s (Slot.isFrame s ch kind) with
  | some (sl, t) => doFrames t sl tile
  | none => s

def execFrameSparse (ch : Fin 2) (s : State) : Result := .next (frameSlot s ch.val 1 sparseTile)
def execFrameDenseLeaf (ch : Fin 2) (s : State) : Result := .next (frameSlot s ch.val 2 denseTile)
def execFrameGather (ch : Fin 2) (s : State) : Result := .next (frameSlot s ch.val 3 gatherTile)
def execStats (ch : Fin 2) (s : State) : Result :=
  match takeSlot s (fun sl => sl.index == 96 + ch.val && sl.opcode == 2) with
  | some (sl, t) => .next (doStats t sl)
  | none => .next s
def execSendAbortNotice (s : State) : Result := .next (abortNotice s)
def execFrameTransmit (ch : Fin 2) (s : State) : Result := .next (transmit s ch.val)
def execRlpTxCredit (ch : Fin 2) (s : State) : Result := .next (txCredit s ch.val)
def execReceiveSparseList (ch : Fin 2) (err : Bool) (bytes : List Byte) (s : State) : Result := .next (receive s ch.val err bytes 1)
def execReceiveDensePartial (ch : Fin 2) (err : Bool) (bytes : List Byte) (s : State) : Result := .next (receive s ch.val err bytes 2)
def execReceiveGatherTile (ch : Fin 2) (err : Bool) (bytes : List Byte) (s : State) : Result := .next (receive s ch.val err bytes 3)
def execReceiveStatistics (ch : Fin 2) (err : Bool) (bytes : List Byte) (s : State) : Result := .next (receive s ch.val err bytes 4)
def execReceiveAbortNotice (ch : Fin 2) (err : Bool) (bytes : List Byte) (s : State) : Result := .next (receive s ch.val err bytes 5)
def execReceiveOutcome (ch : Fin 2) (err : Bool) (bytes : List Byte) (s : State) : Result := .next (receive s ch.val err bytes 6)
def execOwnerWindowAllocate (slab : Fin 8) (s : State) : Result := .next (windowAllocate s slab.val)
def execOwnerAdd (group : Fin 64) (member : BitVec 16) (s : State) : Result := .next (ownerAdd s group.val member.toNat)
def execOwnerConvert (group : Fin 64) (u : BitVec 32) (s : State) : Result := .next (ownerConvert s group.val u.toNat)
def execDenseNodeAdd (group : Fin 64) (u : BitVec 32) (level : Fin 17) (s : State) : Result :=
  .next (denseAdd s group.val u.toNat level.val)
def execStatsFragmentSend (i : Fin 4) (s : State) : Result := .next (statsSend s i.val)
def execDeadlineExpire (s : State) : Result := .next (deadlineExpire s)
def execOutcomeTimeout (s : State) : Result := .next (outcomeTimeout s)
def execPeerFail (rank : BitVec 16) (s : State) : Result := .next (peerFail s rank.toNat)
def execLaneDown (lane : Fin 32) (s : State) : Result := .next (laneDown s lane.val)

end Sys2Proof.Machine
end

