-- ==== Sys2Proof/Machine/MemoryPort.lean ====
section
/-! DEFINITION. The memory port: requests, credits, responses, retries, timeouts, interleave and retirement of channels,
error-feedback windows; and the movers (R252, R268 to R277, R281 to R285). -/

namespace Sys2Proof.Machine

/-! Addresses (R252, R276). -/

def channels (s : State) : List Nat := (List.range 64).filter (fun c => (getChan s c).inService)
/-- The channel of an address. -/
def chanOf (s : State) (a : Nat) : Nat :=
  let l := channels s
  if l.length = 0 then 0 else l.getD (a / 4096 % l.length) 0

/-! What a transfer asks for next (R269, R270, R285). -/

def splitSize (s : State) : Nat := if s.boot.bmpVer = 1 then 2048 else 4096
def toEdge (s : State) (a : Nat) : Nat := splitSize s - a % splitSize s
def Job.hostToHost (j : Job) : Bool := j.reads && j.writes
/-- What a transfer writes stands in its own buffer. -/
def Job.fromBuf (j : Job) : Bool := j.hostToHost || (match j.kind with | .put _ | .tel _ => true | _ => false)
/-- The next read: offset in the transfer and length. -/
def Job.nextRead (s : State) (j : Job) : Option (Nat × Nat) :=
  if !j.reads || j.len ≤ j.rdIssued then none else
  let n := min (j.len - j.rdIssued) (toEdge s (j.src + j.rdIssued))
  some (j.rdIssued, if j.hostToHost then min n (toEdge s (j.dst + j.rdIssued)) else n)
/-- The next write, once its bytes are there. -/
def Job.nextWrite (s : State) (j : Job) : Option (Nat × Nat) :=
  if !j.writes || j.len ≤ j.wrIssued then none else
  let n := min (j.len - j.wrIssued) (toEdge s (j.dst + j.wrIssued))
  let m := if j.hostToHost then min n (toEdge s (j.src + j.wrIssued)) else n
  if !j.reads || (List.range m).all (fun i => (j.buf.byte? (j.src + j.wrIssued + i)).isSome) then some (j.wrIssued, m) else none

/-- The pool whose credits a transfer spends (R202, R281). -/
def Job.pool (j : Job) : CreditPool :=
  if j.spec then .spec else
  match j.kind with
  | .image | .put _ | .tel _ => .block
  | _ => if j.hostToHost then .block else .stream j.slab j.part
/-- Stream credits of a pool (R168, R281). -/
def poolSize (s : State) : CreditPool → Nat
  | .block => 64
  | .spec => 192
  | .stream slab part => (partOf s slab part).credits
/-- A stream credit is free; an image fetch has at most 8 requests outstanding (R176, R281). -/
def streamFree (s : State) (j : Job) : Bool :=
  decide (poolOut s j.pool < poolSize s j.pool) &&
    (j.kind != .image || decide ((s.bmp.reqs.filter (fun r => r.job == j.id && r.pool.isSome)).length < 8))
/-- The staging slots a fetch lands in are held (R279). -/
def Job.placed (s : State) (j : Job) : Bool :=
  match j.kind with
  | .fetch p _ => holdsAll s j.slab j.part (slotsOf j.off (j.off + j.len)) p
  | _ => true

/-- Tags that the channel does not hold (R269, R271). -/
def freeTags (s : State) (ch : Nat) : List Nat :=
  (List.range (if s.boot.bmpVer = 1 then 256 else 1024)).filter (fun t => !s.bmp.reqs.any (fun r => r.ch == ch && r.tag == t))
/-- The tag of the next request: which free tag it takes is open (log 31). -/
def freeTag (s : State) (ch : Nat) : Option Nat :=
  let l := freeTags s ch
  l[Config.tagPick s.freeCtr % l.length]?
/-- An access must wait for an outstanding one, or for a write behind it (R275). -/
def overlaps (s : State) (write : Bool) (addr beats : Nat) : Bool :=
  (underWay s).any (fun r => (write || r.write || !r.kept.isEmpty) && decide (addr < r.addr + 64 * r.beats) && decide (r.addr < addr + 64 * beats))

/-- A request that would be presented: transfer, direction, offset, length, attempts so far; of one presented before also where its bytes
lie, and what has been written behind it. -/
structure Want where
  job      : Job
  write    : Bool
  at_      : Nat
  len      : Nat
  attempts : Nat
  again    : Bool
  since    : Nat
  start    : Option Nat := none
  kept     : Mem := []
  deriving DecidableEq, Repr

def Want.host (w : Want) : Nat := (if w.write then w.job.dst else w.job.src) + w.at_
/-- Where a request's bytes lie in host memory; none where they straddle a window's edge (R252). -/
def Want.place (s : State) (w : Want) : Option Nat := match w.start with | some a => some a | none => mapAddr s w.host w.len
/-- Every request that waits: those to be reissued, and the next read and the next write of each transfer. -/
def wants (s : State) : List Want :=
  let old := s.bmp.redo.filterMap (fun r => (s.bmp.jobs.find? (fun j => j.id == r.job)).map (fun j =>
    { job := j, write := r.write, at_ := r.at_, len := r.len, attempts := r.attempts, again := true, since := r.since, start := some r.start, kept := r.kept }))
  let new := s.bmp.jobs.flatMap (fun j =>
    ((j.nextRead s).map (fun x => ({ job := j, write := false, at_ := x.1, len := x.2, attempts := 0, again := false, since := j.rdSince } : Want))).toList ++
    ((j.nextWrite s).map (fun x => ({ job := j, write := true, at_ := x.1, len := x.2, attempts := 0, again := false, since := j.wrSince } : Want))).toList)
  (old ++ new).filter (fun w => !w.job.failed)

/-- The request that has waited longest. DESIGN CHOICE: a request waits from when the one before it of its transfer was presented (R282,
log 103). -/
def oldest (l : List Want) : Option Want :=
  l.foldl (fun b w => match b with
    | some v => if w.since < v.since then some w else b
    | none => some w) none

def Want.beats (a n : Nat) : Nat := ceilDiv (a % 64 + n) 64
/-- A request may be presented on a channel now. -/
def Want.fits (s : State) (ch : Nat) (w : Want) : Bool :=
  match w.place s with
  | none => false
  | some a =>
    let others := { s with bmp := { s.bmp with redo := s.bmp.redo.filter (fun r => !(w.again && r.job == w.job.id && r.write == w.write && r.at_ == w.at_)) } }
    chanOf s a == ch && streamFree s w.job && w.job.placed s && !overlaps others w.write (a / 64 * 64) (Want.beats a w.len)

def setJob (s : State) (id : Nat) (f : Job → Job) : State :=
  { s with bmp := { s.bmp with jobs := s.bmp.jobs.map (fun j => if j.id = id then f j else j) } }
def dropJob (s : State) (id : Nat) : State :=
  { s with bmp := { s.bmp with jobs := s.bmp.jobs.filter (fun j => j.id != id), redo := s.bmp.redo.filter (fun r => r.job != id) } }

/-- A transfer whose next request straddles a window edge is never completed (R252). -/
def straddles (s : State) (w : Want) : Bool := (w.place s).isNone
def noteStraddle (s : State) (w : Want) : State :=
  let s := setJob s w.job.id (fun j => { j with failed := true })
  let pay := match w.job.kind with
    | .fetch p i => (entrySlab s p i) % 8 * 2 ^ 21 + 2 ^ 20 + 2 ^ 19 + p % 4096 * 2 ^ 6 + i % 64
    | .move op => w.job.slab % 8 * 2 ^ 21 + 2 ^ 20 + moveDesc s op % 2 ^ 16
    | _ => 2 ^ 20
  raise s 4 Ev.descriptorBound (BitVec.ofNat 24 pay)
where
  entrySlab (s : State) (p i : Nat) : Nat := let e := rentry s p i; if e.rope then 0 else e.slab
  moveDesc (s : State) (op : Nat) : Nat :=
    match findOp s op with
    | some o => match o.kind with | .move _ d => d | _ => 0
    | none => 0

/-- The bytes of a transfer that a write carries. -/
def Job.sends (s : State) (j : Job) (at_ len : Nat) : List Byte :=
  (List.range len).map (fun i =>
    if j.fromBuf then (j.buf.byte? (j.src + at_ + i)).getD 0 else stByte s (stKey j.slab j.part (j.off + at_ + i)))
/-- Present the next request of a channel, once the port has negotiated (R270, R271, R276, R281, R323). DEDUCED: host memory, as the engine's accesses see it in their
order, holds the bytes of a write from its request on (R275, log 131). -/
def bmpRequest (s : State) (ch : Nat) : State :=
  let s := match (wants s).find? (straddles s) with | some w => noteStraddle s w | none => s
  let c := getChan s ch
  if !c.inService || c.req = 0 || s.boot.stage = 0xF then s else
  match oldest ((wants s).filter (Want.fits s ch)), freeTag s ch with
  | some w, some tag =>
    let a := (w.place s).getD 0
    let beats := Want.beats a w.len
    let xfers := if w.write then ceilDiv beats 2 else 0
    let now := min xfers c.wdata
    let r : BmpReq := { ch := ch, tag := tag, job := w.job.id, write := w.write, addr := a / 64 * 64, beats := beats, at_ := w.at_,
                        len := w.len, attempts := w.attempts, wleft := xfers - now, late := false,
                        pool := some w.job.pool, since := 0, start := a, kept := w.kept }
    let s := if w.write && !w.again then writeHost s a (w.job.sends s w.at_ w.len) else s
    let s := setChan s ch { c with req := c.req - 1, wdata := c.wdata - now, reqOut := c.reqOut + 1, wdataOut := c.wdataOut + now }
    let redo := if w.again then s.bmp.redo.filter (fun x => !(x.job == w.job.id && x.write == w.write && x.at_ == w.at_)) else s.bmp.redo
    let s := { s with bmp := { s.bmp with reqs := s.bmp.reqs ++ [r], redo := redo, nextJob := s.bmp.nextJob + 1 } }
    let s := if w.again then s else setJob s w.job.id (fun j =>
      if w.write then { j with wrIssued := j.wrIssued + w.len, wrSince := s.bmp.nextJob }
      else { j with rdIssued := j.rdIssued + w.len, rdSince := s.bmp.nextJob })
    bumpFree (unitOut s 0 (2 + now))
  | _, _ => s

/-- A write-transfer credit goes to the oldest write that waits for one. -/
def creditWrite (s : State) (ch : Nat) : State :=
  let t := wdataCredit s ch
  if t.bmp.reqs.any (fun r => r.ch == ch && decide (0 < r.wleft)) && decide (0 < (getChan t ch).wdata) then
    let c := getChan t ch
    let u := setChan t ch { c with wdata := c.wdata - 1, wdataOut := c.wdataOut + 1 }
    unitOut { u with bmp := { u.bmp with
      reqs := mapFirst (fun r => r.ch == ch && decide (0 < r.wleft)) (fun r => { r with wleft := r.wleft - 1 }) u.bmp.reqs } } 0 1
  else t

/-- A fetch has brought its last byte. -/
def fetchDone (s : State) (p i : Nat) : State :=
  let e := rentry s p i
  refresh (if e.rope then ropeFetch s p i e else { s with psc := { s.psc with satisfied := (p, i) :: s.psc.satisfied } })

/-- A transfer is complete when its last byte is where it goes. -/
def jobEnd (s : State) (id : Nat) : State :=
  match s.bmp.jobs.find? (fun j => j.id == id) with
  | none => s
  | some j =>
    if (if j.writes then j.wrDone else j.rdDone) < j.len then s else
    match j.kind with
    | .image => s
    | .tel _ => dropJob s id
    | .move _ => dropJob s id
    | .put none => dropJob s id
    | .put (some key) => gatherWritten (dropJob s id) key
    | .fetch p i => fetchDone (dropJob s id) p i

/-- Bytes of a host-to-host move arrive; a write that had none to send waits from now on. -/
def feedJob (s : State) (j : Job) (a : Nat) (bytes : List Byte) : State :=
  let n := s.bmp.nextJob
  let t := setJob s j.id (fun j => { j with buf := j.buf.setBytes a bytes, wrSince := if (j.nextWrite s).isNone then n else j.wrSince })
  { t with bmp := { t.bmp with nextJob := n + 1 } }
/-- Data of a read arrives; what the host shows of its memory is kept, under what has been written behind the read (R275, log 2). -/
def readArrives (s : State) (r : BmpReq) (j : Job) (data : List Byte) : State :=
  let s := writeHost s r.addr (data.take (64 * r.beats))
  let bytes := hostBytesOf s.hostMem r.start r.len
  let s := layHost s r.kept
  let s := match j.kind with
    | .image => setJob s j.id (fun j => { j with buf := j.buf.setBytes (j.src + r.at_) bytes })
    | _ => if j.hostToHost then feedJob s j (j.src + r.at_) bytes
      else stWrite s (stKey j.slab j.part (j.off + r.at_)) bytes
  jobEnd (setJob s j.id (fun j => { j with rdDone := j.rdDone + r.len })) j.id

/-- A write completes. -/
def writeLands (s : State) (r : BmpReq) (j : Job) : State :=
  jobEnd (setJob s j.id (fun j => { j with wrDone := j.wrDone + r.len })) j.id

/-- Slot words of a passage's bundles from an address on. -/
def slotWords (s : State) (a stop : Nat) : Nat → List (Nat × Nat)
  | 0 => []
  | n + 1 => if stop ≤ a then [] else let b := bundleAt s a; b.words ++ slotWords s (a + b.size) stop n
/-- The first tile of an update that reads a byte of a range of a partition (R234). -/
def updReads (s : State) (u : UpdRun) (part lo hi : Nat) : Option Nat :=
  (List.range u.tiles).find? (fun t => ([u.d.g, u.d.w] ++ u.d.ms).any (fun i =>
    match u.ctx? s i with
    | none => false
    | some c => c.part == part && (List.range 256).any (fun r =>
        let a := c.offset + (256 * (t / u.bcols) + r) * c.pitch + 32 * fmtBits (streamOf s c.stream).fmt * (t % u.bcols)
        decide (a < hi) && decide (lo < a + 32 * fmtBits (streamOf s c.stream).fmt))))
/-- The update, by its slot, and the tile for which a fetch of a passage was to bring a range of staging bytes. -/
def updOfFetch (s : State) (p slab part lo hi : Nat) : Option UpdFail :=
  let e := pentry s p
  (slotWords s e.bundles (e.bundles + e.blen) (e.blen / 16)).findSome? (fun x =>
    let sl : Slot := { index := x.1, array := x.1, word := BitVec.ofNat 64 x.2, passage := p, op := 0, scalars := [] }
    if decide (x.1 = 64 + slab) && sl.bits 63 60 == 1 && sl.veKind s == 6 then
      let u := sl.updRun s
      (updReads s u part lo hi).map (fun t =>
        { slot := sl, slab := slab, tensor := u.d.tensor, brow := (u.block t).1, bcol := (u.block t).2, tile := t })
    else none)
/-- A transfer into staging of a committed step fails: the update whose data it was to bring stops as R236 says, and it may be asked for
again (R273, R334). DESIGN CHOICE: one that brings no update its data only stays incomplete (log 103). -/
def failFetch (s : State) (r : BmpReq) (j : Job) (p : Nat) : State :=
  let s := setJob s j.id (fun j => { j with failed := true })
  let s := { s with bmp := { s.bmp with redo := s.bmp.redo ++ [{ r with attempts := 0, since := s.bmp.nextJob }],
                                        nextJob := s.bmp.nextJob + 1 } }
  match updOfFetch s p j.slab j.part (j.off + r.at_) (j.off + r.at_ + r.len) with
  | none => s
  | some f =>
    let s := raise s (slabSource f.slab) Ev.updateUncorrectable (BitVec.ofNat 24 (f.brow % 4096 * 2 ^ 12 + f.bcol % 4096))
    { s with psc := { s.psc with stopIssue := true }, ras := { s.ras with updFail := some f } }

/-- The bytes of a write that cannot be completed are open, but for what has been written behind it (R273, log 131). -/
def spoilWrite (s : State) (r : BmpReq) : State :=
  if !r.write then s else
  let t := writeHost s r.start ((List.range r.len).map (fun i => Config.freeByte s.freeCtr (r.start + i)))
  bumpFree (layHost t r.kept)
/-- A request that cannot be completed: what follows depends on the transfer it serves (R273, R354). DESIGN CHOICE: of a committed step, a
move that brings no update its data stays incomplete, and a write of a gather leaves the gather one that cannot complete (R334,
log 103). -/
def requestFails (s : State) (r : BmpReq) (code : Nat) : State :=
  let s := raise (spoilWrite s r) 4 code (pack [(6, r.ch), (10, r.tag)])
  match s.bmp.jobs.find? (fun j => j.id == r.job) with
  | none => s
  | some j =>
    let t := setJob s j.id (fun j => { j with failed := true })
    match j.kind with
    | .image => t
    | .tel w => raise (dropJob s j.id) 7 Ev.telWriteFailed (BitVec.ofNat 24 w)
    | .put (some _) => { t with ras := { t.ras with gatherBad := true } }
    | .put none => uncorrectable (dropJob s j.id) 8 j.slab (Config.errorWord 8 r.addr)
    | .fetch p _ => if s.psc.committed then failFetch s r j p else uncorrectable (dropJob s j.id) 8 j.slab (Config.errorWord 8 r.addr)
    | .move op => if s.psc.committed then
          (match findOp s op with
           | some o => if j.reads && !j.writes then failFetch s r j o.passage else t
           | none => t)
        else uncorrectable (dropJob s j.id) 8 j.slab (Config.errorWord 8 r.addr)

/-! Retirement of a channel (R277, R282, R332). -/

/-- A request is to be presented again, on the channel its address has by then. -/
def redoRequest (s : State) (r : BmpReq) (attempts : Nat) : State :=
  if s.bmp.jobs.any (fun j => j.id == r.job) then
    { s with bmp := { s.bmp with redo := s.bmp.redo ++ [{ r with attempts := attempts, since := s.bmp.nextJob }],
                                 nextJob := s.bmp.nextJob + 1 } }
  else s
/-- Retire a channel. What it held: its tags, the stream credits of their requests, and its request and write-transfer credits, in hand
or spent (log 54). -/
def retireChannel (s : State) (ch : Nat) : State :=
  if !(getChan s ch).inService || (channels s).length ≤ 1 then s else
  let c := getChan s ch
  let mine := s.bmp.reqs.filter (fun r => r.ch == ch)
  let streams := (mine.filter (fun r => r.pool.isSome)).length
  let spent := c.reqOut + c.wdataOut
  let n := mine.length + streams + c.req + c.wdata + spent
  let s := setChan s ch Chan.reset
  let s := { s with bmp := { s.bmp with reqs := s.bmp.reqs.filter (fun r => r.ch != ch),
                                        reclaimed := satAdd s.bmp.reclaimed n, retired := setBit s.bmp.retired ch true },
                    boot := { s.boot with credits := s.boot.credits - BitVec.ofNat 17 (min s.boot.credits.toNat c.counted) },
                    ras := { s.ras with excused := 0 :: s.ras.excused },
                    life := { s.life with acc := { s.life.acc with
                      retires := s.life.acc.retires.upd 0 ch (fun x => satAdd x 1) } } }
  let s := (mine.filter (fun r => !r.late)).foldl (fun t r => redoRequest t r r.attempts) s
  let s := raise (unitReclaim s 0 (streams + spent)) 4 Ev.bmpChannelRetired (pack [(6, ch)])
  raise s 6 Ev.creditsReclaimed (BitVec.ofNat 24 (n % 2 ^ 20))

/-- A fault of a channel; at its limit it is retired (R327, R328). -/
def channelFault (s : State) (ch : Nat) : State :=
  let r := transient s 0 ch
  if r.2 then retireChannel r.1 ch else r.1

/-- Code 1, or a timeout: reissue, or give up after the fourth attempt. -/
def retryRequest (s : State) (r : BmpReq) : State :=
  let s := channelFault s r.ch
  if 3 ≤ r.attempts then requestFails s r Ev.bmpUncorrectable else redoRequest s r (r.attempts + 1)

/-- The stream credit of a request comes back, once (R281). -/
def streamBack (s : State) (r : BmpReq) : State := if r.pool.isSome then unitBack s 0 1 else s
def bmpResponse (s : State) (ch tag code : Nat) (data : List Byte) : State :=
  match takeFirst (fun (r : BmpReq) => r.ch == ch && r.tag == tag) s.bmp.reqs with
  | none => s
  | some (r, rest) =>
    let s := { s with bmp := { s.bmp with reqs := rest } }
    if r.late then { s with bmp := { s.bmp with lateRsp := satAdd s.bmp.lateRsp 1 } } else
    let s := streamBack s r
    if code = 1 then retryRequest s r
    else if code = 3 then requestFails s r Ev.bmpAddressError
    else if code ≠ 0 then requestFails s r Ev.bmpUncorrectable
    else match s.bmp.jobs.find? (fun j => j.id == r.job) with
      | none => s
      | some j => if r.write then writeLands s r j else readArrives s r j data

/-- No final response came in time: the tag stays held, its stream credit comes back, the request is tried again (R274). -/
def bmpTimeout (s : State) (ch tag : Nat) : State :=
  match s.bmp.reqs.find? (fun r => r.ch == ch && r.tag == tag && !r.late) with
  | none => s
  | some r =>
    let s := { s with bmp := { s.bmp with reqs := mapFirst (fun x => x == r) (fun x => { x with late := true, pool := none }) s.bmp.reqs } }
    retryRequest (streamBack s r) r

/-- `bmpNN_up` falls. -/
def channelDown (s : State) (ch : Nat) : State :=
  retireChannel { s with pins := { s.pins with chanUp := setBit s.pins.chanUp ch false } } ch

/-! Movers (R283 to R285). -/

structure MoveDesc where
  kind    : Nat
  part    : Nat
  len     : Nat
  soff    : Nat
  src     : Nat
  srcSize : Nat
  dst     : Nat
  dstSize : Nat
  reserved : Bool
  deriving DecidableEq, Repr

def MoveDesc.ofBytes (b : List Byte) : MoveDesc :=
  let k := fieldAt b 0 1
  let z := fun (o n : Nat) => !allZero (slice b o (o + n))
  { kind := k, part := fieldAt b 1 1, len := fieldAt b 4 4, soff := fieldAt b 8 4 % 2 ^ 25, src := addr52 (fieldAt b 0x10 8),
    srcSize := fieldAt b 0x18 8, dst := addr52 (fieldAt b 0x20 8), dstSize := fieldAt b 0x28 8,
    reserved := z 2 2 || z 0xC 4 || z 0x30 16 || decide (2 ^ 25 ≤ fieldAt b 8 4) || addrHigh (fieldAt b 0x10 8) ||
      addrHigh (fieldAt b 0x20 8) || (k == 1 && z 0x20 16) || (k == 2 && z 0x10 16) || (k == 3 && (z 1 1 || z 8 4)) }

def Slot.move (s : State) (sl : Slot) : MoveDesc := MoveDesc.ofBytes (descBytes s sl.passage sl.descIndex)
def moveValid (s : State) (sl : Slot) : Bool :=
  let d := sl.move s
  decide (sl.descIndex < (pentry s sl.passage).ndesc) && decide (1 ≤ d.kind) && decide (d.kind ≤ 3)
/-- Both regions hold the whole move (R284). -/
def MoveDesc.fits (s : State) (slab : Nat) (d : MoveDesc) : Bool :=
  let win := decide (d.soff + d.len ≤ windowBytes s slab d.part)
  let from_ := decide (d.len ≤ d.srcSize)
  let into := decide (d.len ≤ d.dstSize)
  if d.kind = 1 then from_ && win else if d.kind = 2 then win && into else from_ && into
/-- Events of a mover slot at issue. -/
def noteMove (s : State) (sl : Slot) : State :=
  let d := sl.move s
  let slab := sl.index - 72
  let s := if decide (sl.descIndex < (pentry s sl.passage).ndesc) && d.reserved then
      reservedRead s (slabSource slab) ((pentry s sl.passage).desc + 64 * sl.descIndex) else s
  if !moveValid s sl then raiseOpenPassage s (slabSource slab) Ev.moverInvalid sl.passage
  else
    if d.len ≠ 0 ∧ !d.fits s slab then
      raise s (slabSource slab) Ev.descriptorBound (BitVec.ofNat 24 (slab * 2 ^ 21 + sl.descIndex))
    else s
/-- A mover slot that has something to do. -/
def moveRuns (s : State) (sl : Slot) : Bool :=
  moveValid s sl && (sl.move s).len != 0 && (sl.move s).fits s (sl.index - 72)

/-- A MOVE waits for a credit of the stream it spends, and for one of the channel of its first request (R194, R281, R282). -/
def moveHold (s : State) (sl : Slot) : Option Nat :=
  let d := sl.move s
  let pool : CreditPool := if d.kind = 3 then .block else .stream (sl.index - 72) d.part
  let first := (mapAddr s (if d.kind = 2 then d.dst else d.src) 1).map (chanOf s)
  if poolOut s pool < poolSize s pool ∧ (first.all (fun c => (getChan s c).req != 0)) then none else some 9

def doMove (s : State) (sl : Slot) : State :=
  let d := sl.move s
  let slab := sl.index - 72
  let job : Job := { id := s.bmp.nextJob, kind := .move sl.op, reads := d.kind != 2, writes := d.kind != 1, src := d.src, dst := d.dst,
                     slab := slab, part := d.part, off := d.soff, len := d.len, rdIssued := 0, rdDone := 0, wrIssued := 0,
                     wrDone := 0, rdSince := s.bmp.nextJob, wrSince := s.bmp.nextJob, buf := [], failed := false, spec := false }
  addOp { s with bmp := { s.bmp with jobs := s.bmp.jobs ++ [job], nextJob := s.bmp.nextJob + 1 } }
    (sl.toOp (.move slab sl.descIndex) (if d.kind = 1 then [byteSpan slab d.part d.soff d.len] else []))

/-- A MOVE finishes with its last byte (R285). -/
def moveComplete (s : State) (op : Nat) : State :=
  match findOp s op with
  | some o => match o.kind with
    | .move _ _ => if s.bmp.jobs.any (fun j => j.kind == .move op) then s else finishOp s op
    | _ => s
  | none => s

/-! Meanings. -/

def moveAct (s : State) (slab kind : Nat) : Result :=
  match takeSlot s (fun sl => sl.index == 72 + slab && sl.opcode == 1 && (sl.move s).kind == kind) with
  | some (sl, t) => .next (doMove t sl)
  | none => .next s
def execMoveHostToStaging (slab : Fin 8) (s : State) : Result := moveAct s slab.val 1
def execMoveStagingToHost (slab : Fin 8) (s : State) : Result := moveAct s slab.val 2
def execMoveHostToHost (slab : Fin 8) (s : State) : Result := moveAct s slab.val 3
def execMoveComplete (op : Nat) (s : State) : Result := .next (moveComplete s op)
def execBmpRequest (ch : Fin 64) (s : State) : Result := .next (bmpRequest s ch.val)
def execBmpWdataCredit (ch : Fin 64) (s : State) : Result := .next (creditWrite s ch.val)
def execBmpResponse (ch : Fin 64) (tag : BitVec 10) (code : BitVec 3) (data : List Byte) (s : State) : Result :=
  .next (bmpResponse s ch.val tag.toNat code.toNat data)
def execBmpTimeout (ch : Fin 64) (tag : BitVec 10) (s : State) : Result := .next (bmpTimeout s ch.val tag.toNat)
def execBmpChannelDown (ch : Fin 64) (s : State) : Result := .next (channelDown s ch.val)

end Sys2Proof.Machine
end

