-- ==== Sys2Proof/Machine/BundleIssue.lean ====
section
/-! DEFINITION. The bundle issue unit: holds, staging a slot needs, issue,
stall causes, and the control slots (R183 to R195, R204, R209, R210, R279, R297). -/

namespace Sys2Proof.Machine

/-! Staging that a slot writes and reads (R195, R279). -/

/-- The records of a spill or reload of a group. -/
def recordSpans (s : State) (sl : Slot) : List Span :=
  let c := ctxOf s sl.passage (sl.bits 50 43)
  (List.range (groupOf s sl.sumpKey).rowCount).map (fun r =>
    byteSpan (sl.index - 88) c.part (c.offset + r * c.pitch) (256 * spillSize (sl.bits 42 42 == 1)))
/-- The lists of a top-8 drain. -/
def topSpans (s : State) (d : Drain) : List Span :=
  (List.range (d.rows s)).map (fun i => byteSpan d.slab d.cx.part (d.cx.offset + 64 * i) 64)

/-- Staging that a slot writes. -/
def slotWrites (s : State) (sl : Slot) : List Span :=
  let i := sl.index
  let op := sl.opcode
  if op = 0 then []
  else if 64 ≤ i ∧ i < 72 then
    (if sl.veKind s = 6 then updWrites s sl else (sl.nextRun s).writes s)
  else if 72 ≤ i ∧ i < 80 then
    let d := sl.move s
    if d.kind = 1 then [byteSpan (i - 72) d.part d.soff d.len] else []
  else if 88 ≤ i ∧ i < 96 then
    (if op = 4 then
      let d := sl.drain s
      if !(groupOf s sl.sumpKey).isOpen || !d.cx.good 2 then [] else d.spans s
     else if op = 5 then recordSpans s sl else [])
  else []
/-- What the LOAD of a stationary tile reads: the cast's columns of its context's tensor, each in full. -/
def loadReads (s : State) (sl : Slot) : List Span :=
  let cast := castOf s sl.array
  let c := ctxOf s sl.passage (sl.bits 42 35)
  let f := if c.outlier = 0 then cast.ft else (streamOf s c.stream).fmt
  ((List.range cast.cols).map (fun j => sl.bits 9 0 * cast.cols + j)).map (fun (n : Nat) => c.span (arraySlab sl.array) n 0 c.kExt (fmtNibs f))
/-- What a BURST reads: the elements that its rows' addresses name. -/
def burstReads (s : State) (sl : Slot) : List Span :=
  let a := sl.array
  let cast := castOf s a
  match nextPass (getArray s a) with
  | none => []
  | some q =>
    let d := feederDesc s q.fdesc
    (match passList s q with | some _ => [sideSpan (arraySlab a) (passCtx s q).stream2] | none => []) ++
    (List.range (sl.bits 42 37 + 1)).flatMap (fun i => (List.range (cast.segs * cast.L)).filterMap (fun k =>
      match feedAddr d (sl.bits 27 0 + i) (q.origin cast + k) with
      | .off o => some { slab := arraySlab a, part := (passCtx s q).part, nib := 2 * (fdBase d : Int) + o * fmtNibs cast.fs, size := fmtNibs cast.fs, n := 1 }
      | _ => none))
/-- What a FRAME reads: the lists or tiles that it sends. -/
def frameReads (s : State) (sl : Slot) : List Span :=
  let d := sl.coll s
  let h := rgroup s d.group
  let c := ctxOf s sl.passage d.ctx
  let f := (streamOf s c.stream).fmt
  if d.kind = 1 then (List.range d.ntiles).map (fun i =>
    byteSpan d.slab c.part (c.offset + i * c.pitch) (4 + h.kmax * (2 + listBytes (streamOf s (gtensor s h d.tensor).gstream).fmt)))
  else (List.range (256 * d.ntiles)).map (fun r => byteSpan d.slab c.part (c.offset + r * c.pitch) (32 * fmtBits (if d.kind = 2 then 9 else f)))
/-- Staging that a slot reads. -/
def slotReads (s : State) (sl : Slot) : List Span :=
  let i := sl.index
  let op := sl.opcode
  if op = 0 then []
  else if i < 64 then (if op = 1 then loadReads s sl else burstReads s sl)
  else if i < 72 then (if sl.veKind s = 6 then updReadSpans s sl else (sl.nextRun s).reads s)
  else if i < 80 then (let d := sl.move s; if d.kind = 2 then [byteSpan (i - 72) d.part d.soff d.len] else [])
  else if i < 88 then (let d := sl.rope s; [byteSpan (i - 80) d.spart (65536 * d.sslot) (65536 * d.tiles)])
  else if i < 96 then
    (if op = 4 then let d := sl.drain s; d.fusedSpans s ++ (if d.mode < 2 then [] else topSpans s d)
     else if op = 6 then recordSpans s sl else [])
  else if i < 98 then (if op = 1 then frameReads s sl else [])
  else []

/-- Staging that moves of a passage have yet to read. -/
def movesOut (s : State) (mine : List Op) : List Span :=
  (s.bmp.jobs.filter (fun j => !j.reads && (match j.kind with | .move op => mine.any (fun o => o.id == op) | _ => false))).map
    (fun j => byteSpan j.slab j.part j.off j.len)
/-- An access to staging that the passage has under way and that the slot must wait for: rope data it reads, other data it reads or
writes, data it would write that an operation has yet to read (R194, R195, log 72). -/
def dataHold (s : State) (sl : Slot) : Option Nat :=
  let mine := s.psc.ops.filter (fun o => o.passage == sl.passage)
  let due := movesOut s mine ++ mine.flatMap (·.reads)
  if due.isEmpty && mine.all (fun o => o.writes.isEmpty) then none else
  let outs := slotWrites s sl
  let both := slotReads s sl ++ outs
  match mine.find? (fun o => both.any (fun x => meetsAny x o.writes)) with
  | some o => match o.kind with | .send _ _ => some 10 | _ => some 9
  | none => if outs.any (fun x => meetsAny x due) then some 9 else none

/-- Take the slots that a slot writes, each as an allocation of its own in its stream's order; the answer says whether it holds them
all. DEDUCED: R194 holds a slot until the staging slots it needs are to be had, so they are taken before it issues (R279, log 104). -/
def takeStaging (s : State) (sl : Slot) : State × Bool :=
  ((slotWrites s sl).flatMap (fun w => (w.slots s).map (fun x => (w.slab, w.part, x)))).eraseDups.foldl (fun (q : State × Bool) k =>
    let r := holdSlot q.1 k.1 k.2.1 k.2.2 sl.passage
    (r.1, q.2 && r.2)) (s, true)

/-! Slots that are no operation: their descriptor fails (R217). -/

/-- The slot has something to do; a failed descriptor makes it a no-op. -/
def slotRuns (s : State) (sl : Slot) : Bool :=
  let i := sl.index
  if sl.opcode = 0 then true
  else if i < 64 then true
  else if i < 72 then
    let d := descBytes s sl.passage sl.descIndex
    if sl.veKind s = 6 then updValid s sl && (UpdDesc.ofBytes d).ctxsOk s sl.passage
    else runValid s sl && (VeDesc.ofBytes d).ctxsOk s sl.passage
  else if i < 80 then moveRuns s sl
  else if i < 88 then sendValid s sl
  else if i < 96 then true
  else if i < 98 then collValid s sl && collCtxOk s sl
  else true
/-- Events that a slot raises at issue. -/
def noteSlot (s : State) (sl : Slot) : State :=
  let i := sl.index
  if sl.opcode = 0 ∨ i < 64 then s
  else if i < 72 then (if sl.veKind s = 6 then noteUpd s sl else noteRun s sl)
  else if i < 80 then noteMove s sl
  else if i < 88 then noteSend s sl
  else if i < 96 then s
  else if i < 98 then noteColl s sl
  else s

/-! Holds (R194, R204, R210). -/

/-- A slot that a speculative passage may issue. -/
def specSlot (sl : Slot) : Bool :=
  sl.opcode == 0 || decide (sl.index < 64) || (decide (88 ≤ sl.index) && decide (sl.index < 96) && sl.opcode == 1) ||
    (sl.index == 98 && sl.opcode == 1)
def controlHold (s : State) (sl : Slot) : Option Nat :=
  if sl.opcode = 3 then (if 16 ≤ (getCore s (sl.bits 59 58)).notify.length then some 13 else none)
  else if sl.opcode = 2 ∧ sl.bits 59 59 = 0 then
    (if (tensorRange (sl.bits 54 45) (sl.bits 44 35)).any (acquireWaits s) then some 12 else none)
  else none
/-- Why a slot's unit does not accept it. -/
def unitHold (s : State) (sl : Slot) : Option Nat :=
  let i := sl.index
  if sl.opcode = 0 then none
  else if i < 64 then (if sl.opcode = 1 then loadHold s sl else burstHold s sl)
  else if i < 72 then
    (match if sl.veKind s = 6 then updateHold s sl else none with
     | some c => some c
     | none => runHold s sl)
  else if i < 80 then moveHold s sl
  else if i < 88 then sendHold s sl
  else if i < 96 then sumpHold s sl
  else if i < 98 then collHold s sl
  else controlHold s sl
def slotHold (s : State) (sl : Slot) : Option Nat :=
  if (getPassage s sl.passage).spec && !specSlot sl then some 13
  else if !slotRuns s sl then none
  else match unitHold s sl with
    | some c => some c
    | none => dataHold s sl
/-- `version_hold` for an update that waits on a held version (R133). -/
def noteHold (s : State) (sl : Slot) : State :=
  if 64 ≤ sl.index ∧ sl.index < 72 ∧ sl.opcode = 1 ∧ slotRuns s sl ∧ sl.veKind s = 6 then
    let t := (UpdDesc.ofBytes (descBytes s sl.passage sl.descIndex)).tensor
    match if (updateHold s sl).isSome then verHeldTag s t else none with
    | some tag => raiseOncePassage s 2 Ev.versionHold (sl.passage * 1024 + t) (pack [(10, t), (10, tag)])
    | none => s
  else s
/-- A RUN that is held waits for its lane groups (R256). -/
def noteRunWait (s : State) (sl : Slot) : State :=
  if 64 ≤ sl.index ∧ sl.index < 72 ∧ sl.opcode = 1 then
    let v := getVe s (sl.index - 64)
    if v.groups &&& BitVec.ofNat 4 sl.laneMask = 0 then s
    else setVe s (sl.index - 64) { v with runWait := BitVec.ofNat 4 sl.laneMask }
  else s

/-- The descriptor of a slot whose class has one: its address. -/
def Slot.descAt (s : State) (sl : Slot) : Option Nat :=
  if sl.opcode ≠ 0 ∧ ((64 ≤ sl.index ∧ sl.index < 88) ∨ sl.index = 96 ∨ sl.index = 97) then
    some ((pentry s sl.passage).desc + 64 * sl.descIndex) else none
/-- Side tables of a slot's operands and results: address, bytes, and whether the slot writes it (R141, R275). -/
def sideRanges (s : State) (sl : Slot) : List (Nat × Nat × Bool) :=
  let one := fun (c : Ctx) (rows : Nat) (w : Bool) =>
    let st := streamOf s c.stream
    if c.side = 0 ∨ !st.scaled then [] else [(c.side, 8 + ceilDiv rows 256 * tilesPerRow c st.fmt, w)]
  let i := sl.index
  let op := sl.opcode
  if op = 0 then []
  else if i < 64 then
    (if op = 1 then let c := ctxOf s sl.passage (sl.bits 42 35); one c c.nExt false
     else match nextPass (getArray s sl.array) with
       | some q => one (passCtx s q) 256 false
       | none => [])
  else if i < 72 then
    (if sl.veKind s = 6 then
      let u := sl.updRun s
      ([u.d.g, u.d.w] ++ u.d.ms).flatMap (fun n => match u.ctx? s n with | some c => one c u.d.rows false | none => []) ++
        [u.d.wo, u.d.c].flatMap (fun n => match u.ctx? s n with | some c => one c u.d.rows true | none => []) ++
        (match u.ctx? s u.d.t with | some c => one c u.d.cols true | none => [])
     else
      let r := sl.veRun s
      r.d.ins.flatMap (fun n => match r.ctx? s n with | some c => one c r.d.rows false | none => []) ++
        (match r.out s 0 with | some c => one c r.d.rows true | none => []) ++
        (match r.out s 1 with | some c => one c r.d.cols true | none => []))
  else if 88 ≤ i ∧ i < 96 ∧ op = 4 then one (ctxOf s sl.passage (sl.bits 50 43)) 256 true
  else []
/-- A structure that the slot reads or writes waits for an access under way to the same bytes (R275). -/
def orderHold (s : State) (sl : Slot) : Bool :=
  (match sl.descAt s with | some a => writeDue s a 64 | none => false) ||
    (sideRanges s sl).any (fun r => if r.2.2 then accessDue s r.1 r.2.1 else writeDue s r.1 r.2.1)
/-- Slots in order: the state with what staging they could take, and the cause of the first that is held. -/
def holdAll (s : State) : List Slot → State × Option Nat
  | [] => (s, none)
  | sl :: rest =>
    match if slotRuns s sl && orderHold s sl then some 9 else slotHold s sl with
    | some c => (noteRunWait (noteHold s sl) sl, some c)
    | none =>
      let r := if slotRuns s sl then takeStaging s sl else (s, true)
      if r.2 then holdAll r.1 rest else (r.1, some 9)

/-- A LOAD of the bundle waits for a forced self-test of its array's spares (R341). -/
def testHold (s : State) (slots : List Slot) : Bool :=
  slots.any (fun sl => decide (sl.index < 64) && sl.opcode == 1 && loadHold s sl == some 15)
/-- What holds a bundle: a forced self-test comes before the causes of the other slots (R210). -/
def bundleHold (s : State) (slots : List Slot) : State × Option Nat :=
  let r := holdAll s slots
  (r.1, if testHold s slots then some 15 else r.2)

/-- The cause a barrier counts: that of the lowest slot index whose operation is unfinished (R210). -/
def barrierHold (s : State) (p : Nat) : Option Nat :=
  match (s.psc.ops.filter (fun o => o.passage == p) ++ savedOps s p).map (·.slot) with
  | [] => none
  | i :: is =>
    let n := is.foldl min i
    some (if n < 64 then 3 else if n < 72 then 8 else if n < 80 then 9 else if n < 88 then 10 else if n < 96 then 5 else 11)

/-! Issue (R193, R209). -/

/-- The scalar registers a RUN samples at issue (R225, R233). -/
def sampleScalars (s : State) (sl : Slot) : Slot :=
  if 64 ≤ sl.index ∧ sl.index < 72 ∧ sl.opcode = 1 then
    let b := descBytes s sl.passage sl.descIndex
    let upd := fieldAt b 0 1 == 6
    let bank := if upd then (UpdDesc.ofBytes b).sbank else (VeDesc.ofBytes b).sbank
    { sl with scalars := (List.range (if upd then 8 else 16)).map (fun i => Tab.get 0 (getCore s (bank / 64)).scalar (bank % 64 + i)) }
  else sl
/-- A VERSION slot acts at issue; every other slot that has something to do is handed to its unit. -/
def acceptSlot (s : State) (sl : Slot) : State :=
  let s := noteSlot (match sl.descAt s with | some a => noteTable s a 64 | none => s) sl
  if sl.index = 98 ∧ sl.opcode = 2 then
    versionSlot s (sl.bits 59 59 == 1) (sl.bits 58 55) (sl.bits 54 45) (sl.bits 44 35)
  else if slotRuns s sl then { s with psc := { s.psc with accepted := s.psc.accepted ++ [sampleScalars s sl] } }
  else s

def issueNow (s : State) (p : Nat) (b : Bundle) (slots : List Slot) : State :=
  let s := slots.foldl acceptSlot (latchAclk s)
  let x := getPassage s p
  let s := { s with psc := { s.psc with lastBundle := some (x.bundle, slots.map (·.index)) } }
  let s := setPassage s p { x with ptr := x.ptr + b.size, bundle := x.bundle + 1, status := if b.last then .ended else x.status,
                                   fetchTill := s.clock.aclk + Config.fetchTime s.clock.aclk }
  advance { s with psc := { s.psc with issued := satAdd s.psc.issued 1, nextOp := s.psc.nextOp + slots.length,
                                       lastIssue := s.clock.aclk, issuing := if b.last then none else s.psc.issuing } }

/-- An ACLK passes without issue, under a cause. -/
def holdNow (s : State) (cause : Nat) : State :=
  let s := if isBubble s then countLife s 17 1 else s
  advance (countStall s cause 1)

/-- The next bundle has not been fetched, or a write to its bytes is under way (R194, R210, R275, log 2). -/
def bundleWaits (s : State) (x : Passage) : Bool :=
  decide (s.clock.aclk < x.fetchTill) || writeDue s x.ptr 16 || writeDue s x.ptr (bundleAt s x.ptr).size
/-- The bundle and its slots can go: a load ramp starts first where 4,096 ACLK or more have passed without issue, and no ramp has begun
since (R357). -/
def rampIssue (s : State) (p : Nat) (b : Bundle) (slots : List Slot) : State :=
  if 4096 < s.clock.aclk - max s.psc.lastIssue s.pwr.began then
    let t := startRamp s
    if powerHolds t then holdNow t 14 else issueNow t p b slots
  else issueNow s p b slots
/-- The fetched bundle is checked, and issues if none of its slots holds it (R184, R194). -/
def issueFetched (s : State) (p : Nat) : State :=
  let x := getPassage s p
  let e := pentry s p
  let b := bundleAt s x.ptr
  let s := noteTable s x.ptr b.size
  let s := if bundleReserved s b then raiseOncePassage s 2 Ev.reservedWrite (2 ^ 64 + x.ptr)
      (pack [(3, 7), (21, x.ptr / 4)]) else s
  if !bundleOk s b e (x.ptr - e.bundles) then
    let s := raise s 2 Ev.bundleInvalid (BitVec.ofNat 24 (p % 4096 * 2 ^ 12 + x.bundle % 4096))
    holdNow (setPassage s p { x with stuck := true }) 0
  else
    let slots := bundleSlots b p (s.psc.nextOp + 1)
    let r := bundleHold s slots
    match r.2 with
    | some c => holdNow r.1 c
    | none =>
      match if b.barrier then barrierHold r.1 p else none with
      | some c => holdNow r.1 c
      | none => rampIssue r.1 p b slots
/-- The cause of a stall ACLK to which no row of R209 applies: in a GAP, or with issue stopped. DESIGN CHOICE: R209 counts every
such ACLK under exactly one cause, and which one is a free value (log 18). -/
def openCause (s : State) : Nat := Config.openCause s.clock.aclk % 16
/-- One ACLK of the issue unit with a passage issuing. -/
def tryIssue (s : State) (p : Nat) : State :=
  let x := getPassage s p
  if powerHolds s then holdNow s 14
  else if s.img.swapTo.isSome then holdNow s 1
  else if x.stuck then holdNow s 0
  else if s.clock.aclk < x.loadTill then holdNow s 2
  else if s.clock.aclk < x.rowTill then holdNow s 3
  else if s.clock.aclk < x.gap then holdNow s (openCause s)
  else if bundleWaits s x then holdNow s 9
  else issueFetched s p

/-- A passage may issue: it runs, no slot of the last bundle still waits for its unit, and nothing has stopped it. -/
def mayIssue (s : State) (p : Nat) : Bool :=
  s.psc.run && (getPassage s p).status == .running && s.psc.accepted.isEmpty && !s.psc.stopIssue &&
    (s.psc.preempter.isNone || s.psc.suspended.isSome)
/-- One ACLK of the issue unit; an abort that waits for nothing more is done first. -/
def bundleIssue (s : State) : State :=
  let s := dueAbort s
  match s.psc.issuing with
  | some p => if mayIssue s p then tryIssue s p else s
  | none => s

/-! Control slots (R191, R297). -/

def gapSlot (s : State) (sl : Slot) : State :=
  setPassage s sl.passage { getPassage s sl.passage with gap := s.psc.lastIssue + sl.bits 15 0 }
/-- NOTIFY appends to the core's queue; its interrupt level follows (R299). -/
def notifySlot (s : State) (sl : Slot) : State :=
  let n := sl.bits 59 58
  let c := getCore s n
  sampleLevels (setCore s n { c with notify := c.notify ++ [BitVec.ofNat 32 (sl.bits 31 0)] })

/-! Meanings. -/

def execBundleIssue (s : State) : Result := .next (bundleIssue s)
def execNop (slot : BitVec 7) (s : State) : Result :=
  match takeSlot s (fun sl => sl.index == slot.toNat && sl.opcode == 0) with
  | some (_, t) => .next t
  | none => .next s
def execGap (s : State) : Result :=
  match takeSlot s (fun sl => sl.index == 98 && sl.opcode == 1) with
  | some (sl, t) => .next (gapSlot t sl)
  | none => .next s
def execNotify (s : State) : Result :=
  match takeSlot s (fun sl => sl.index == 98 && sl.opcode == 3) with
  | some (sl, t) => .next (notifySlot t sl)
  | none => .next s

end Sys2Proof.Machine
end

