-- ==== Sys2Proof/Machine/CoreBase.lean ====
section
/-! DEFINITION. Control cores as the register space sees them: hold, memories, scalar bank (R291 to R296, R386). -/

namespace Sys2Proof.Machine

/-- Key under which `Config.coreByte` numbers a byte of a core's memory: instruction memory, then data memory. -/
def coreKey (n : Nat) (data : Bool) (a : Nat) : Nat := n * 2 ^ 17 + (if data then 2 ^ 16 else 0) + a
/-- A byte of a core's instruction or data memory; undefined until written (R293, log 3). -/
def coreMemByte (s : State) (n : Nat) (data : Bool) (a : Nat) : Byte :=
  let c := getCore s n
  ((if data then c.dmem else c.imem).byte? a).getD (Config.coreByte s.boot.coreEpoch (coreKey n data a))
def coreMemNat (s : State) (n : Nat) (data : Bool) (a k : Nat) : Nat :=
  leNat ((List.range k).map (fun i => coreMemByte s n data (a + i)))
def coreMemWrite (s : State) (n : Nat) (data : Bool) (a : Nat) (bs : List Byte) : State :=
  let c := getCore s n
  setCore s n (if data then { c with dmem := c.dmem.setBytes a bs } else { c with imem := c.imem.setBytes a bs })

/-- A core in reset: registers and CSRs at their reset values; memories, scalar bank, notify queue and software counters
keep (R293). -/
def Core.restart (c : Core) (hold : Bool) : Core :=
  { Core.reset with hold := hold, cnt := c.cnt, scalar := c.scalar, notify := c.notify, imem := c.imem, dmem := c.dmem }
def ccHold (s : State) (n : Nat) : State := let c := getCore s n; if c.hold then s else setCore s n (c.restart true)
def ccRelease (s : State) (n : Nat) : State := let c := getCore s n; if c.hold then setCore s n (c.restart false) else s

/-- The half of the memories that `CC_WSEL` selects, and the byte address in it. -/
def ccSel (s : State) (n : Nat) : Nat := fld (liveReg s (0x30000C + 0x10000 * n)).toNat 1 0
def windowAddr (s : State) (n off : Nat) : Nat := ccSel s n % 2 * 32768 + off % 32768 / 4 * 4
def windowData (s : State) (n : Nat) : Bool := decide (2 ≤ ccSel s n)
/-- A write through the window; into instruction memory only while the core is held. -/
def windowWrite (s : State) (req : Req) (n off : Nat) (v : Word) : State :=
  if !windowData s n && !(getCore s n).hold then reservedWrite s req (0x308000 + 0x10000 * n + off % 32768)
  else coreMemWrite s n (windowData s n) (windowAddr s n off) (leBytes 4 v.toNat)
def windowRead (s : State) (n off : Nat) : Nat := coreMemNat s n (windowData s n) (windowAddr s n off) 4

/-- The scalar bank (R296). -/
def getScalar (s : State) (n i : Nat) : Word := Tab.get 0 (getCore s n).scalar i
def setScalar (s : State) (n i : Nat) (v : Word) : State :=
  let c := getCore s n
  setCore s n { c with scalar := c.scalar.put i v }

def execCcHoldSet (req : Req) (core : Fin 4) (s : State) : Result := .next (portAccess s req (fun t => ccHold t core.val))
def execCcHoldClear (req : Req) (core : Fin 4) (s : State) : Result := .next (portAccess s req (fun t => ccRelease t core.val))
def execCcWindowWrite (req : Req) (core : Fin 4) (off : BitVec 15) (v : Word) (s : State) : Result :=
  .next (portAccess s req (fun t => windowWrite t req core.val off.toNat v))

end Sys2Proof.Machine
end

