-- ==== Sys2Proof/Machine/Retire.lean ====
section
/-! DEFINITION. Leaky decay, the localisation test, retirement of rows, columns and arrays, scrub, self-test of spares,
forced background slots, and the retries of R334 (R74 to R77, R327 to R334, R340, R341). -/

namespace Sys2Proof.Machine

/-! Retirement in arrays (R75 to R77, R329, R332, R337). -/

/-- The logical array a physical one serves, if any (R77). -/
def logicalOf (s : State) (p : Nat) : Option Nat :=
  if !s.isZ64 then (if p < s.silicon.cls.arrays then some p else none)
  else if 72 ≤ p then none
  else match List.lookup (p / 9) s.ras.spareFor with
    | some x => if p % 9 = 8 then some (8 * (p / 9) + x) else if x = p % 9 then none else some (8 * (p / 9) + p % 9)
    | none => if p % 9 = 8 then none else some (8 * (p / 9) + p % 9)

/-- Entries that drains of an array have reserved and not filled. A place of a masked block is none. -/
def isReserved (s : State) (a : Nat) (e : FtqEntry) : Bool :=
  !e.ready && match findOp s e.op with
    | some o => match o.kind with | .drain b _ _ _ _ _ _ _ _ => b == a | _ => false
    | none => false

/-- What a retired array held goes back: the ownership and the in-flight counts of its groups or regions, and in Z8 to
Z32 its reservations (R332). -/
def reclaimArray (s : State) (a : Nat) : State :=
  let own := (s.sump.owners.filter (fun o => o.1 / 64 == a)).length
  let fly := sumNat ((s.sump.groups.filter (fun kv => kv.1 / 64 == a)).map (fun kv => kv.2.inflight))
  let res := if s.isZ64 then 0 else (getVe s (arraySlab a)).ftq.countP (isReserved s a)
  let v := getVe s (arraySlab a)
  let s := if s.isZ64 then s else setVe s (arraySlab a) { v with ftq := v.ftq.filter (fun e => !isReserved s a e) }
  let groups := s.sump.groups.map (fun kv =>
    if kv.1 / 64 = a then (kv.1, { kv.2 with inflight := 0 }) else kv)
  let s := { s with sump := { s.sump with groups := groups, owners := s.sump.owners.filter (fun o => o.1 / 64 != a) },
                    ras := { s.ras with reclaimed := satAdd s.ras.reclaimed (own + fly + res),
                                        excused := (if s.isZ64 then [7] else [5, 7]) ++ s.ras.excused } }
  let s := if own = 0 then s else raise (unitReclaim s 7 own) 6 Ev.creditsReclaimed (BitVec.ofNat 24 (7 * 2 ^ 20 + own % 2 ^ 20))
  if res = 0 then s else raise (unitReclaim s 5 res) 6 Ev.creditsReclaimed (BitVec.ofNat 24 (5 * 2 ^ 20 + res % 2 ^ 20))

/-- An array as a whole is retired: its slab's spare takes its place, or it has failed. The step ends in either case
(R76, R77). -/
def retireArray (s : State) (p a : Nat) : State :=
  if spareFree s p then endStep (reclaimArray (substitute s p) a)
  else
    let t := { s with ras := { s.ras with failed := a :: s.ras.failed }, life := countRetired s.life p }
    endStep (reclaimArray (raiseOpen t (slabSource (arraySlab a)) Ev.arrayFailed) a)

/-- An array has come to its pass boundary: none of its chunk words is in flight (R61, R75). -/
def atBoundary (s : State) (a : Nat) : Bool := !s.sump.chunks.any (fun c => c.id.array == a)

/-- A stopped array that waits for no test and no retirement goes on, if the step does (R337). -/
def resumeAfterFault (s : State) (a : Nat) : State :=
  let x := getArray s a
  if !x.stopped || arrayHeld s a || s.psc.stopIssue then s else
  let pas := match x.saved.kept, x.saved.next with
    | some q, _ => q.passage
    | none, some q => q.passage
    | none, none => (s.psc.issuing.getD 0)
  raise (resumeArray s a) 6 Ev.passageResumed (pack [(12, pas)])

/-- The declaration of an array column lapses (R329). -/
def absolve (s : State) (p col : Nat) : State :=
  let k := elemKey 2 (264 * p + col)
  { s with ras := { s.ras with leaky := s.ras.leaky.put k 0, perm := s.ras.perm.filter (· != k) } }

/-- Spares of an array that retirements in hand are to take. -/
def sparesTaken (s : State) (p : Nat) (col : Bool) : Nat :=
  (s.ras.retPend.filter (fun e => e.array == p && e.isCol == col)).length
/-- A row or column waits for its array's pass boundary; with no spare left, the array goes (R75 to R77, R329). -/
def localise (s : State) (p a : Nat) (e : Element) : State :=
  if s.ras.retPend.contains e then s
  else if sparesLeft s p e.isCol ≤ sparesTaken s p e.isCol then retireArray s p a
  else { s with ras := { s.ras with retPend := s.ras.retPend ++ [e] } }

/-- The localisation test of the first column declared on an array: 2,048 ACLK under `stationary_load` (R329). -/
def localisationTest (s : State) (p : Nat) (found : Localised) : State :=
  match s.ras.locPend.find? (fun x => x.1 == p), logicalOf s p with
  | some (_, col), some a =>
    if !atBoundary s a then s else
    let s := heldAclk { s with ras := { s.ras with locPend := s.ras.locPend.erase (p, col) } } 2 2048
    match found with
    | .sound => resumeAfterFault (absolve s p col) a
    | .row i => localise s p a { array := p, isCol := false, index := i }
    | .column => localise s p a { array := p, isCol := true, index := col }
    | .other => retireArray s p a
  | _, _ => s

/-- The new mapping applies; a tile loaded or loading under the old one is loaded again (R75). Where a self-test has since failed the last
spare of its kind, the array goes instead (R76, R77, R331). -/
def retirementApply (s : State) (p : Nat) : State :=
  match s.ras.retPend.find? (fun e => e.array == p), logicalOf s p with
  | some e, some a =>
    if !atBoundary s a then s
    else if sparesLeft s p e.isCol = 0 then retireArray { s with ras := { s.ras with retPend := s.ras.retPend.erase e } } p a
    else
    let s := retireElement { s with ras := { s.ras with retPend := s.ras.retPend.erase e } } e
    let x := getArray s a
    let again := fun (q : Option Pass) => q.map (fun y => { y with complete := false })
    let ops := match x.loading with
      | some q => if s.psc.ops.any (fun o => o.id == q.op) || !q.complete then [] else
          [({ id := q.op, passage := q.passage, slot := a, kind := .load a, writes := [] } : Op)]
      | none => []
    let s := setArray { s with psc := { s.psc with ops := s.psc.ops ++ ops } } a { x with loading := again x.loading }
    resumeAfterFault s a
  | _, _ => s

/-! Leaky counts, scrub, self-test of spares (R328, R331, R333, R340). -/

def leakyDecay (s : State) (cls index : Nat) : State :=
  let c := leakyCount s cls index
  if c = 0 ∨ isPermanent s cls index then s
  else { s with ras := { s.ras with leaky := s.ras.leaky.put (elemKey cls index) (c - 1) } }

/-- Background work runs once the memory port has been negotiated for, from stage 0x8 on. -/
def backgroundOn (s : State) : Bool := decide (8 ≤ s.boot.stage.toNat) && s.boot.stage != 0xF

/-- A slot index belongs to a unit of R171: slab 0 to 7, or 8, the block-wide ports. -/
def onUnit (unit i : Nat) : Bool :=
  if unit = 8 then i == 96 || i == 97
  else if i < 64 then i / 8 == unit
  else decide (i < 96) && i % 8 == unit
/-- A unit does nothing: no slot of it waits, and no operation of it is unfinished, but for bursts past their last latch (R69, R341). -/
def unitIdle (s : State) (unit : Nat) : Bool :=
  !s.psc.accepted.any (fun sl => onUnit unit sl.index) &&
    !s.psc.ops.any (fun o => onUnit unit o.slot && (match o.kind with | .burst a => burstLatching s a | _ => true))
/-- The last bundle of the passage that issues, or has issued last, is the unit's reserved background bundle, and the program placed no
slot of the unit there (R171). -/
def reservedBundle (s : State) (unit : Nat) : Bool :=
  match s.psc.lastBundle with
    | some (b, slots) => b % 4096 == bgPhase s unit && !slots.any (onUnit unit)
    | none => false
/-- A quantum of a job on an element of a unit runs: it has a forced slot, or its unit's reserved bundle, or slack. Otherwise the
foreground wins, and the quantum is to be begun again (R341). -/
def quantumRuns (s : State) (job element unit : Nat) : Bool :=
  s.ras.forced.contains (job, element) || reservedBundle s unit || unitIdle s unit
/-- A quantum has used its forced slot. -/
def spendForced (s : State) (job element : Nat) : State :=
  { s with ras := { s.ras with forced := s.ras.forced.erase (job, element) } }

/-- Class 3 index of a scrubbed memory: 8 s + m for slab s, or 64 to 66 for the block's own (R348). -/
def scrubIndex (unit bank : Nat) : Nat := if unit < 8 then 8 * unit + bank else 64 + bank
/-- A memory that scrub covers, as its reads are counted: from the release of SCLK on (R319, R327). -/
def scrubbed (s : State) (unit bank : Nat) : Bool :=
  s.boot.stage != 0 && (decide (unit < s.slabs ∧ bank < 6) || decide (unit = 8 ∧ bank < 3))
/-- A quantum that runs, with what it finds; where it does not, before background work or with the foreground on the unit, an error that
another read finds still counts (R327, R333, logs 11, 36), and a word that holds no data of the step is left to scrub. -/
def scrubQuantum (s : State) (unit bank : Nat) (found : ScrubFinding) : State :=
  if !scrubbed s unit bank then s else
  let runs := backgroundOn s && quantumRuns s 0 unit unit
  let s := if runs then spendForced s 0 unit else s
  match found with
  | .clean => s
  | .corrected => (transient s 3 (scrubIndex unit bank)).1
  | .doubleUnused => if runs then (transient s 3 (scrubIndex unit bank)).1 else s
  | .doubleInUse u slab addr => uncorrectable s u.toNat slab.toNat addr.toNat

/-- A physical row or column of an array that carries no logical index and is not retired. -/
def isUnusedSpare (s : State) (e : Element) : Bool :=
  decide (e.array < s.silicon.cls.physArrays ∧ e.index < physSize s) &&
    !(s.silicon.fuseMap ++ s.ras.retired).contains e && !(inService s e.array e.isCol).contains e.index
/-- No pass is on an array, or it serves no logical array (R340). -/
def betweenPasses (s : State) (p : Nat) : Bool :=
  match logicalOf s p with
  | some a => atBoundary s a && !(s.psc.ops.any (fun o => match o.kind with | .load b => b == a | _ => false))
  | none => true
def spareSelfTest (s : State) (e : Element) (ok : Bool) : State :=
  if !backgroundOn s || !isUnusedSpare s e || !betweenPasses s e.array || !quantumRuns s 2 e.array (physSlab s e.array) then s else
  let s := if s.ras.forced.contains (2, e.array) && Tab.get 0 s.ras.bgLoads e.array == 0 then
      { s with ras := { s.ras with bgLoads := s.ras.bgLoads.put e.array (s.clock.aclk + 512) } } else s
  let s := spendForced s 2 e.array
  if ok then s else raise (retireElement s e) 6 Ev.spareTestFailed (elementPayload e)

def sensorQuantum (s : State) (vs : List (BitVec 16)) : State :=
  if backgroundOn s && quantumRuns s 1 8 8 then setSense (spendForced s 1 8) vs else s

/-! Forced slots (R341). -/

/-- ACLK of a job's quantum (R340). -/
def quantumLength (job : Nat) : Nat := [64, 256, 512, 128, 64].getD job 0
/-- The element of a job's quantum: a slab or the block for scrub, an array for the self-test of spares, the block for the others. -/
def quantumElement (job unit : Nat) : Nat := if job = 0 ∨ job = 2 then unit else 8
/-- A quantum takes a forced slot: the next bundle is held for its length, or, for the self-test of an array's spares, the array's LOADs
are, from now or, with a pass on the array, from its end (R341, log 110). -/
def forcedSlot (s : State) (job : Nat) (unit : Nat) : State :=
  if !s.psc.run || s.psc.issuing.isNone || (job == 2 && !hasSpare s unit) then s else
  let n := quantumLength job
  let s := { s with ras := { s.ras with forced := s.ras.forced ++ [(job, quantumElement job unit)] } }
  let s := if job = 2 then
      { s with ras := { s.ras with bgLoads := s.ras.bgLoads.put unit (if betweenPasses s unit then s.clock.aclk + n else 0) } }
    else heldAclk s 15 n
  countLife (raise s 6 Ev.bgForced (BitVec.ofNat 24 (job * 2 ^ 20 + unit % 2 ^ 20))) 15 1

/-! Recoveries by software (R334). -/

/-- `RAS_OUTCOME` after `outcome_lost`. -/
def rasOutcome (s : State) (req : Req) (commit lockMatch : Bool) : State :=
  if !s.ras.lostWait then reservedWrite s req 0x280040 else
  let s := raise s 6 Ev.outcomeApplied (BitVec.ofNat 24
    ((if commit then 2 ^ 23 else 0) + (if lockMatch then 2 ^ 22 else 0) + s.psc.step.toNat % 2 ^ 16))
  if !commit then abortWhenDone { s with ras := { s.ras with lostWait := false }, rlp := { s.rlp with lost := false } } else
  let s := { s with psc := { s.psc with stopIssue := false, run := true },
                    ras := { s.ras with lostWait := false }, rlp := { s.rlp with lost := false } }
  let s := (List.range s.silicon.cls.arrays).foldl (fun t a => if arrayHeld t a then t else resumeArray t a) s
  commitStep s none lockMatch

/-- A transfer of a committed step whose request failed. -/
def failedFetch (s : State) (j : Job) : Bool := j.failed && s.bmp.redo.any (fun r => r.job == j.id)
/-- `RAS_RETRY.update`: the update goes on from its failing tile, or the fetch that failed is asked for again (R273, R334). A read that
fails again meets the same rule. -/
def retryUpdate (s : State) (req : Req) : State :=
  match s.ras.updFail with
  | none => reservedWrite s req 0x280044
  | some f =>
    let s := { s with psc := { s.psc with stopIssue := false }, ras := { s.ras with updFail := none } }
    if f.slot.op = 0 then
      { s with bmp := { s.bmp with jobs := s.bmp.jobs.map (fun j => if failedFetch s j then { j with failed := false } else j) } }
    else
      { s with psc := { s.psc with accepted := f.slot :: s.psc.accepted },
               ras := { s.ras with updFrom := some (f.slot.op, f.tile) } }

/-- A gather of a committed step is under way on this rank. -/
def gatherPending (s : State) : Bool :=
  s.psc.stepOn && s.psc.committed && !(s.rlp.gsent.isEmpty && s.rlp.gwant.isEmpty)
/-- It cannot complete (R259, R343, log 69). -/
def gatherStuck (s : State) : Bool := gatherPending s && (s.ras.gatherBad || !portServes s)
def gatherGroups (s : State) : List Nat :=
  (s.rlp.gsent.map (fun x => x.2.2.group) ++ s.rlp.gwant.map (·.1)).eraseDups

/-- A queue without its gather frames; one in flight goes out as it is. -/
def purgeQueue (c : RlpChan) : RlpChan :=
  match c.queue with
  | (op, f) :: rest =>
    let left := rest.filter (fun x => x.2.typ != 3)
    if f.typ ≠ 3 then { c with queue := (op, f) :: left }
    else if c.beats ≠ 0 then { c with queue := (0, f) :: left }
    else { c with queue := left }
  | [] => c
/-- Frames an operation has yet to send. -/
def recountOp (sent : List (Nat × Nat × Frame)) (o : Op) : Op :=
  match o.kind with
  | .frames ch n g =>
    let mine := (sent.filter (fun x => x.2.1 == o.id)).length
    { o with kind := .frames ch (if mine = 0 then n else mine) g }
  | _ => o

/-- `RAS_RETRY.gather` of a gather that cannot complete: a new attempt, sequences from 0, every owned tile sent again and every tile
received written again (R259, R334). -/
def retryGather (s : State) (req : Req) : State :=
  if !gatherStuck s then reservedWrite s req 0x280044 else
  let nb := (s.rlp.fbuf.filter (fun f => f.typ == 3)).length
  let s := unitBack (keepJobs { s with rlp := { s.rlp with fbuf := s.rlp.fbuf.filter (fun f => f.typ != 3) } }
    (fun j => match j.kind with | .put (some _) => false | _ => true)) 3 nb
  let n := s.psc.attempt.toNat + 1
  let sent := s.rlp.gsent
  let groups := gatherGroups s
  let chans := s.rlp.chans.map (fun c => (c.1, purgeQueue c.2))
  let backlog := s.rlp.backlog.filter (fun x => x.2.2.typ != 3)
  let again : List (Nat × Nat × Frame) := sent.map (fun x => (x.1, x.2.1, { x.2.2 with attempt := min 255 n }))
  let s := { s with psc := { s.psc with attempt := BitVec.ofNat 8 (min 255 n), ops := s.psc.ops.map (recountOp sent) },
                    ras := { s.ras with gatherBad := false },
                    rlp := { s.rlp with sent := [], expect := [], gathered := [], chans := chans, backlog := backlog, gsent := again } }
  let s := groups.foldl (fun t g => raise t 6 Ev.gatherRetry (BitVec.ofNat 24 (g % 64 * 2 ^ 18 + t.psc.attempt.toNat))) s
  again.foldl (fun t x => queueFrame t x.1 x.2.1 x.2.2) s

/-- `RAS_SPARE_CTRL.snap` (R385). -/
def spareSnap (s : State) : State := { s with ras := { s.ras with window := spareRecord s } }

/-! Meanings. -/

def execLeakyDecay (cls : Fin 5) (index : BitVec 16) (s : State) : Result := .next (leakyDecay s cls.val index.toNat)
def execLocalisationTest (array : Nat) (found : Localised) (s : State) : Result := .next (localisationTest s array found)
def execRetirementApply (array : Nat) (s : State) : Result := .next (retirementApply s array)
def execScrubQuantum (unit : Nat) (bank : Nat) (found : ScrubFinding) (s : State) : Result := .next (scrubQuantum s unit bank found)
def execSensorCalibrationQuantum (sense : List (BitVec 16)) (s : State) : Result := .next (sensorQuantum s sense)
def execSpareColumnSelfTest (el : Element) (ok : Bool) (s : State) : Result := .next (spareSelfTest s el ok)
def execForcedBackgroundSlot (job : Fin 5) (unit : BitVec 20) (s : State) : Result := .next (forcedSlot s job.val unit.toNat)
def execRasOutcome (req : Req) (commit lockMatch : Bool) (s : State) : Result :=
  .next (portAccess s req (fun t => rasOutcome t req commit lockMatch))
def execRasRetryUpdate (req : Req) (s : State) : Result :=
  .next (portAccess s req (fun t => retryUpdate t req))
def execRasRetryGather (req : Req) (s : State) : Result :=
  .next (portAccess s req (fun t => retryGather t req))
def execRasSpareSnap (req : Req) (s : State) : Result :=
  .next (portAccess s req (fun t => spareSnap t))

end Sys2Proof.Machine
end

