-- ==== Sys2Proof/Machine/Lifetime.lean ====
section
/-! DEFINITION. The flowstone record's flush and save, telemetry snapshots and the time histogram (R345 to R354). -/

namespace Sys2Proof.Machine

/-- The end of a save: saves and its copy, save_step, CRC and copy to the buffer (R351). -/
def finishSave (s : State) : State :=
  if !s.life.busy then s else
  let n := satAdd s.life.saves 1
  let rec_ := { s.life.rec_ with globals := s.life.rec_.globals.put 20 (n.setWidth 64) }
  let s := { s with life := { s.life with rec_ := rec_, saves := n, saveStep := s.psc.step } }
  let s := { s with life := { s.life with saveBuf := lifeRecord s, ready := true, busy := false } }
  raise s 7 Ev.lifeSaved (n.setWidth 24)

/-- The flush: local accumulators enter the record, saturating (R350). -/
def flushLife (s : State) : State :=
  { s with life := { s.life with rec_ := s.life.rec_.addAll s.life.acc, acc := LifeCounts.zero } }
def lifetimeFlush (s : State) : State :=
  if backgroundOn s && quantumRuns s 4 8 8 then finishSave (flushLife (spendForced s 4 8)) else s

/-- A write of 1 to `LIFE_CTRL.save` (R351). -/
def lifeSave (s : State) (req : Req) : State :=
  if !backgroundOn s then reservedWrite s req 0x290000
  else { s with life := { s.life with busy := true } }

/-! Telemetry (R354). -/

def telPeriod (s : State) : Nat := fld (liveReg s 0x290018).toNat 15 0
def telCap (s : State) : Nat := 2 ^ fld (liveReg s 0x290018).toNat 19 16
def telBase (s : State) : Nat := livePair s 0x290010 % 2 ^ 52

/-- The 128 bytes of a snapshot. -/
def telRecord (s : State) : List Byte :=
  let stall := fun (i : Nat) => min u32max (Tab.get (0 : BitVec 64) s.psc.stalls i - Tab.get (0 : BitVec 64) s.life.snapStall i).toNat
  let sense := fun (i : Nat) => if i < 8 ∧ s.slabs ≤ i then 0 else (Tab.get (0 : BitVec 16) s.life.sense i).toNat
  leBytes 8 (s.clock.ts.toNat + s.clock.epoch.toNat * 2 ^ 48) ++ leBytes 8 s.psc.step.toNat ++
    leBytes 8 (s.psc.issued - s.life.snapIss).toNat ++ (List.range 16).flatMap (fun i => leBytes 4 (stall i)) ++
    (List.range 12).flatMap (fun i => leBytes 2 (sense i)) ++ leBytes 4 s.pwr.est ++ leBytes 2 s.pwr.cap.toNat ++
    leBytes 1 (bubbleCount s) ++ [0] ++ leBytes 4 s.life.snapDroop.toNat ++ leBytes 4 0

/-- A snapshot is taken with the sensors' samples of that time, and its record goes to its place of the ring by a transfer of the
block-wide stream (R281, R354). DESIGN CHOICE: the quantum itself ends the interval that the counts cover and moves the index on, whether
or not the write succeeds (log 28). -/
def snapshot (s : State) (sense : List (BitVec 16)) : State :=
  if telPeriod s = 0 ∨ !backgroundOn s ∨ !quantumRuns s 3 8 8 then s else
  let s := setSense (spendForced s 3 8) sense
  let a := telBase s + s.life.telW.toNat % telCap s * 128
  let t := putJob s (.tel s.life.telW.toNat) a (telRecord s)
  { t with life := { t.life with telW := s.life.telW + 1, snapIss := s.psc.issued, snapStall := s.psc.stalls, snapDroop := 0 } }

/-! The time histogram (R349). -/

def tempBin (t16 : Int) : Nat := if t16 < 400 then 0 else min 15 (1 + ((t16 - 400) / 80).toNat)
def voltBin (mv : Nat) : Nat := if mv < 650 then 0 else min 7 (1 + (mv - 650) / 25)
/-- One second's highest temperature, and the lowest of the core supplies, `vdd_arr` and `vdd_log` (R392); before the record stands,
in the start-up accumulator. -/
def histogramSecond (s : State) (t16 : Int) (mv : CoreSupply) : State :=
  let i := 8 * tempBin t16 + voltBin (min mv.arr mv.log)
  let add := fun (c : LifeCounts) => { c with temps := c.temps.upd 0 i (fun x => satAdd x 1) }
  if s.boot.stage = 0 then s
  else if backgroundOn s then { s with life := { s.life with rec_ := add s.life.rec_ } }
  else { s with life := { s.life with acc := add s.life.acc } }

def execLifeSave (req : Req) (s : State) : Result :=
  .next (portAccess s req (fun t => lifeSave t req))
def execLifetimeFlush (s : State) : Result := .next (lifetimeFlush s)
def execTelemetrySnapshot (sense : List (BitVec 16)) (s : State) : Result := .next (snapshot s sense)
def execHistogramSecond (temp16 : Int) (mv : CoreSupply) (s : State) : Result := .next (histogramSecond s temp16 mv)

end Sys2Proof.Machine
end

