-- ==== Sys2Proof/Machine/Power.lean ====
section
/-! DEFINITION. The power-cap port: caps, windows, droop pauses, load ramps (R355 to R358). -/

namespace Sys2Proof.Machine

/-- The block is out of reset. -/
def outOfReset (s : State) : Bool := s.boot.stage != 0

/-- `pwr_cap_stb` toggles: the cap is sampled, to take effect in the next window (R355). -/
def capStrobe (s : State) (cap : BitVec 10) : State :=
  let s := { s with pins := { s.pins with capStb := !s.pins.capStb, cap := cap } }
  if !outOfReset s then s
  else raise { s with pwr := { s.pwr with nextCap := cap, pending := true } } 8 Ev.capChanged (BitVec.ofNat 24 cap.toNat)

/-- The throttle count after a window whose estimate is `est` mW (R356). -/
def throttle (b : Nat) (cap est : Nat) : Nat :=
  if cap = 0 then 0
  else if est > cap * 1000 then min 15 (b + 1)
  else if 16 * est ≤ 15 * cap * 1000 then b - 1
  else b
/-- The estimate in W as `pwr_est` shows it. -/
def estWatts (est : Nat) : Nat := min 4095 (est / 1000)

/-- A window ends with its estimate, and the next one starts under the cap sampled last (R355, R356). -/
def powerWindow (s : State) (est : Nat) : State :=
  if !outOfReset s then s else
  let b := throttle s.pwr.b s.pwr.cap.toNat est
  let t := { s with pwr := { s.pwr with b := b, est := est, cap := if s.pwr.pending then s.pwr.nextCap else s.pwr.cap,
                                        pending := false } }
  if s.pwr.b = 0 ∧ b ≠ 0 then
    raise t 8 Ev.throttleActive (BitVec.ofNat 24 (s.pwr.cap.toNat + estWatts est * 2 ^ 10))
  else t

/-- `droop_n` falls: issue pauses (R358). -/
def droopFall (s : State) : State :=
  if !s.pins.droopN then s else
  let s := { s with pins := { s.pins with droopN := false } }
  if !outOfReset s then s else
  let s := countLife { s with pwr := { s.pwr with paused := true },
                              life := { s.life with snapDroop := satAdd s.life.snapDroop 1 } } 16 1
  let n := satAdd (Tab.get (0 : BitVec 64) s.life.rec_.globals 16) (Tab.get (0 : BitVec 64) s.life.acc.globals 16).toNat
  raise s 8 Ev.droopPause (n.setWidth 24)

/-- `droop_n` rises: the pause ends and a ramp starts (R357, R358). -/
def droopRise (s : State) : State :=
  if s.pins.droopN then s else
  let s := { s with pins := { s.pins with droopN := true } }
  if !s.pwr.paused then s else
  if s.pwr.waiting && s.pins.rampAck then ackRamp { s with pwr := { s.pwr with paused := false } }
  else startRamp { s with pwr := { s.pwr with paused := false } }

/-- One step of the ramp (R357). -/
def rampStep (s : State) : State :=
  if s.pwr.paused || s.pwr.waiting then s else { s with pwr := { s.pwr with r := s.pwr.r - 1 } }

/-- The power controller accepts the ramp (R357). -/
def rampAck (s : State) : State :=
  let s := { s with pins := { s.pins with rampAck := true } }
  if s.pwr.waiting && !s.pwr.paused then ackRamp s else s

/-- No acknowledge within `PWR_RAMP_TIMEOUT` (R357). -/
def rampTimeout (s : State) : State :=
  if s.pwr.waiting && !s.pwr.paused then beginRamp (raise s 8 Ev.rampTimeout 0) else s

def execPwrCapStrobe (cap : BitVec 10) (s : State) : Result := .next (capStrobe s cap)
def execPowerWindow (est : Nat) (s : State) : Result := .next (powerWindow s est)
def execDroopFall (s : State) : Result := .next (droopFall s)
def execDroopRise (s : State) : Result := .next (droopRise s)
def execRampStep (s : State) : Result := .next (rampStep s)
def execPwrRampAck (s : State) : Result := .next (rampAck s)
def execRampTimeout (s : State) : Result := .next (rampTimeout s)

end Sys2Proof.Machine
end

