-- ==== Sys2Proof/Machine/RegMap.lean ====
section
/-! DEFINITION. The register map: which addresses hold registers, their access codes, and their writable and defined bits
(R10 to R13, R322, R325, R343, R359, R371 to R386). -/

namespace Sys2Proof.Machine

/-- Access code of a register (R10); RS reads like RO, an RA register names its APPLY group. -/
inductive Acc where
  | ro | rw | wo | ra (group : Nat)
  deriving DecidableEq, Repr

/-- A register, or `count` registers `stride` bytes apart: writable bits, and the bits that are not reserved. -/
structure RegRow where
  base   : Nat
  count  : Nat
  stride : Nat
  acc    : Acc
  wmask  : Nat
  dmask  : Nat
  deriving DecidableEq, Repr

def all32 : Nat := 0xFFFFFFFF
def roRow (base mask : Nat) : RegRow := ⟨base, 1, 4, .ro, 0, mask⟩
def roRows (base count mask : Nat) : RegRow := ⟨base, count, 4, .ro, 0, mask⟩
def rwRow (base mask : Nat) : RegRow := ⟨base, 1, 4, .rw, mask, mask⟩
def rwRows (base count mask : Nat) : RegRow := ⟨base, count, 4, .rw, mask, mask⟩
def woRow (base mask : Nat) : RegRow := ⟨base, 1, 4, .wo, mask, mask⟩
def raRow (g base mask : Nat) : RegRow := ⟨base, 1, 4, .ra g, mask, mask⟩
/-- The two words of a 52-bit address. -/
def raBase (g base : Nat) : List RegRow := [raRow g base all32, raRow g (base + 4) 0xFFFFF]

def glbRows : List RegRow :=
  [roRow 0x000000 all32, roRow 0x000004 0xFFFFFF, roRow 0x000008 0x07FF0FFF, roRow 0x00000C 0xFFFFFF, roRow 0x000010 0xF,
   roRows 0x000018 4 all32, rwRows 0x000030 4 all32, roRow 0x000040 0x0003FF0F, woRow 0x000044 3,
   raRow 0 0x000080 all32, raRow 0 0x000084 all32]
def negRows : List RegRow :=
  [roRow 0x010000 3, roRow 0x010004 0x1FFFF, roRows 0x010008 2 all32, roRow 0x010010 3, roRow 0x010014 all32]
def aplRows : List RegRow :=
  [woRow 0x020000 0x1FFFF, rwRow 0x020004 0xFFFF, rwRow 0x020008 1, roRow 0x02000C 0x1FFFF, roRow 0x020010 all32]
def imgRows : List RegRow :=
  [rwRow 0x030000 all32, rwRow 0x030004 0xFFFFF, rwRow 0x030008 0x7FFFFF, woRow 0x03000C 3, roRow 0x030010 0xFFFFFF07,
   roRows 0x030018 2 all32, roRow 0x030020 0x3F, rwRows 0x030100 32 all32, rwRow 0x030180 0xF]
def pscRows : List RegRow :=
  [rwRow 0x040000 1, roRow 0x040004 0x00FF7FFF, roRow 0x040008 all32, roRow 0x04000C 0xFF, woRow 0x040010 0x1FF,
   woRow 0x040014 0x1FFFFFF, raRow 1 0x040028 0x1FFF, raRow 1 0x040038 0x7FF, roRow 0x040050 0x1FF,
   roRows 0x040060 4 all32, woRow 0x040080 0x1FFF, roRows 0x040100 36 all32] ++
  raBase 1 0x040020 ++ raBase 1 0x040030 ++ raBase 1 0x040040 ++ raBase 1 0x040048
def govRows : List RegRow :=
  raBase 2 0x050000 ++ raBase 2 0x050010 ++ raBase 2 0x050018 ++ raBase 2 0x050028 ++
  [raRow 2 0x050008 0x1FFF, raRow 2 0x050020 0x7FF, raRow 2 0x050030 0x1F, roRow 0x050034 all32, rwRow 0x050040 0x3FF,
   rwRows 0x050044 4 all32, ⟨0x051000, 256, 4, .ra 3, 0x0F0F0F0F, 0x0F0F0F0F⟩]
def qntRows : List RegRow :=
  [⟨0x060000, 64, 16, .ra 4, all32, all32⟩, ⟨0x060004, 64, 16, .ra 4, 0xFFFFF, 0xFFFFF⟩,
   ⟨0x060008, 64, 16, .ra 4, 0x7FFFF, 0x7FFFF⟩, ⟨0x06000C, 64, 16, .ra 4, 0xFFFF, 0xFFFF⟩, raRow 5 0x070008 0x7FF] ++
  raBase 5 0x070000
/-- One slab page, as page 0x10. -/
def slbRows : List RegRow :=
  [roRows 0x100000 9 0x1FFF, rwRow 0x100040 0x1FF, roRow 0x100044 0x3FFFFFFF, roRows 0x100048 2 0xFFFFFF,
   roRows 0x100050 3 all32, roRow 0x10005C 0xFFF, roRows 0x100080 6 all32, roRow 0x100098 0xFFFF, roRow 0x1000A0 0x1F,
   roRow 0x1000A4 0x3FF, roRows 0x100100 36 all32]
def bmpRows : List RegRow :=
  [rwRow 0x200000 all32, roRows 0x200008 6 all32, rwRow 0x200020 0x3F, roRow 0x200024 all32, roRow 0x200028 0x7FF]
def rlpRows : List RegRow :=
  [raRow 6 0x210000 0xFFFF, raRow 6 0x210004 0x1FFFF, raRow 6 0x210008 all32, raRow 6 0x21000C all32,
   raRow 6 0x210010 all32, raRow 7 0x210040 all32, raRow 7 0x210044 all32, roRow 0x210048 1, roRows 0x210050 6 all32,
   roRow 0x210068 0xFFFF, roRow 0x210070 all32] ++
  raBase 6 0x210018 ++ raBase 7 0x210020 ++ raBase 7 0x210028 ++ raBase 7 0x210030 ++ raBase 7 0x210038
def ropeRows : List RegRow := [roRows 0x220000 2 all32, roRow 0x220008 0x77777777, roRow 0x22000C 0xFF]
def intRows : List RegRow :=
  [⟨0x240000, 256, 4, .rw, 0x7FFFF, 0xFFFFFF⟩, rwRow 0x240400 0xF, ⟨0x240410, 6, 4, .wo, all32, all32⟩,
   ⟨0x240430, 6, 4, .wo, all32, all32⟩, roRows 0x240450 6 all32, ⟨0x240500, 8, 16, .rw, 0xFFFF, 0xFFFF⟩,
   ⟨0x240504, 8, 16, .ro, 0, 0x01FF01FF⟩, ⟨0x240508, 8, 16, .wo, 0xFF, 0xFF⟩, ⟨0x24050C, 8, 16, .wo, 0xFF, 0xFF⟩]
def evtRows : List RegRow :=
  [roRow 0x250000 all32, rwRow 0x250004 all32, roRows 0x250008 2 all32, rwRow 0x250010 0xFFFF, roRow 0x250014 0xFFFF,
   woRow 0x250020 all32, roRows 0x250024 5 all32, roRow 0x250038 1]
def mbxRows : List RegRow :=
  [woRow 0x260000 0xF, woRow 0x260004 0xF, rwRows 0x260008 2 all32, woRow 0x260010 0xF, roRows 0x260014 3 all32,
   roRow 0x260020 0xF1, roRow 0x260024 0xFFFF]
def rasRows : List RegRow :=
  [rwRows 0x280000 5 all32, roRow 0x280020 0x3F, roRows 0x280030 2 all32, woRow 0x280040 7, woRow 0x280044 3,
   roRow 0x280048 0x3FF, roRow 0x28004C 0xFFFFFF, roRow 0x280050 0x1FFF, roRow 0x280054 0x3FFFFF, rwRow 0x280060 0xFFFFF,
   roRow 0x280064 0x1FFFF, woRow 0x280070 1, roRow 0x280074 0xFFF, roRows 0x280100 64 0x7F]
def lifeRows : List RegRow :=
  [woRow 0x290000 1, roRow 0x290004 7, rwRow 0x290010 all32, rwRow 0x290014 0xFFFFF, rwRow 0x290018 0xFFFFF,
   roRow 0x29001C all32, roRows 0x290100 12 0xFFFF]
def pwrRows : List RegRow :=
  [rwRow 0x2A0000 1, rwRow 0x2A0004 0xFFFFF, rwRow 0x2A0008 all32, roRow 0x2A000C 0x0FFFFFFF]
/-- One core page, as page 0x30. -/
def ccRows : List RegRow :=
  [rwRow 0x300000 1, roRow 0x300004 0x1F7, roRow 0x300008 all32, rwRow 0x30000C 3, roRows 0x300040 16 all32,
   rwRows 0x300100 64 all32]

/-- Rows of a page (R371); pages not named are reserved. -/
def pageRows (page : Nat) : List RegRow :=
  match page with
  | 0x00 => glbRows | 0x01 => negRows | 0x02 => aplRows | 0x03 => imgRows | 0x04 => pscRows | 0x05 => govRows
  | 0x06 => qntRows | 0x07 => qntRows | 0x10 => slbRows | 0x20 => bmpRows | 0x21 => rlpRows | 0x22 => ropeRows
  | 0x24 => intRows | 0x25 => evtRows | 0x26 => mbxRows | 0x28 => rasRows | 0x29 => lifeRows | 0x2A => pwrRows
  | 0x30 => ccRows | _ => []

/-- An address on the first page of its kind: slab pages and core pages repeat one layout. -/
def firstPage (a : Nat) : Nat :=
  let p := a / 65536
  if 0x10 ≤ p ∧ p < 0x18 then 0x100000 + a % 65536
  else if 0x30 ≤ p ∧ p < 0x34 then 0x300000 + a % 65536
  else a
def RegRow.has (r : RegRow) (a : Nat) : Bool :=
  decide (r.base ≤ a) && (a - r.base) % r.stride == 0 && decide ((a - r.base) / r.stride < r.count)
/-- The register at an address; none on a page of a slab the class lacks (R378). -/
def regRow (s : State) (a : Nat) : Option RegRow :=
  let p := a / 65536
  if 0x10 + s.slabs ≤ p ∧ p < 0x18 then none
  else (pageRows (firstPage a / 65536)).find? (fun r => r.has (firstPage a))

/-- Fields of a register that a value would give a reserved value, as a mask (R13). -/
def reservedFields (a : Nat) (v : Nat) : Nat :=
  let above := fun (mask top : Nat) => if v &&& mask > top then mask else 0
  let zero := fun (mask : Nat) => if v &&& mask = 0 then mask else 0
  if a = 0x040028 ∨ a = 0x050008 then above 0x1FFF 4096
  else if a = 0x040038 ∨ a = 0x050020 ∨ a = 0x070008 then above 0x7FF 1024
  else if a = 0x050030 then above 0x1F 16
  else if 0x060000 ≤ a ∧ a < 0x060400 ∧ a % 16 = 8 then above 0x7FFFF 0x40000
  else if a = 0x200000 ∨ a = 0x210008 ∨ a = 0x21000C ∨ a = 0x2A0008 then zero all32
  else if a = 0x210004 then above 0x1FFFF 65536 ||| zero 0x1FFFF
  else if a = 0x210040 then (if v % 4096 = 0 then 0 else all32)
  else if a = 0x240400 then above 0xF 8
  else if a = 0x250010 then above 0xFFFF 8192
  else if 0x280000 ≤ a ∧ a < 0x280014 then zero 0xFFFF ||| zero 0xFFFF0000
  else if a = 0x280060 then above 0xF 4
  else if a = 0x290018 then (if fld v 19 16 < 4 then 0xF0000 else 0)
  else if a = 0x2A0004 then zero 0xFFFF
  else 0

/-- Lower words of 64-bit pairs (R363). -/
def pairLow (a0 : Nat) : Bool :=
  let a := firstPage a0
  [0x000018, 0x000020, 0x000080, 0x010008, 0x030000, 0x030018, 0x040008, 0x040020, 0x040030, 0x040040, 0x040048, 0x040060,
   0x040068, 0x050000, 0x050010, 0x050018, 0x050028, 0x070000, 0x100080, 0x100088, 0x100090, 0x200008, 0x200010,
   0x200018, 0x210018, 0x210020, 0x210028, 0x210030, 0x210038, 0x210040, 0x210050, 0x210058, 0x220000, 0x250008,
   0x260008, 0x260014, 0x280030, 0x290010].contains a ||
    (decide (0x040100 ≤ a ∧ a < 0x040190) && a % 8 == 0) ||
    (decide (0x060000 ≤ a ∧ a < 0x060400) && a % 16 == 0) ||
    (decide (0x100100 ≤ a ∧ a < 0x100190) && a % 8 == 0)

end Sys2Proof.Machine
end

