-- ==== Sys2Proof/Machine/Registers.lean ====
section
/-! DEFINITION. Reads and writes through the control port, APPLY and the lock (R10 to R15, R361 to R386). -/

namespace Sys2Proof.Machine

/-! Reads. -/

def lo32 (x : Nat) : Nat := x % 2 ^ 32
/-- The word of a u64 that an address with bit 2 clear or set names. -/
def half (a x : Nat) : Nat := if a % 8 < 4 then x % 2 ^ 32 else x / 2 ^ 32 % 2 ^ 32
def bit (b : Bool) (i : Nat) : Nat := if b then 2 ^ i else 0

def readGlb (s : State) (a : Nat) : Nat :=
  let c := s.silicon.cls
  if a = 0x000000 then 0x5A475045
  else if a = 0x000004 then 0x200 + s.silicon.rev.toNat * 2 ^ 16
  else if a = 0x000008 then c.arrays + c.slabs * 2 ^ 8 + s.silicon.lanes % 2 ^ 11 * 2 ^ 16
  else if a = 0x00000C then 0x200
  else if a = 0x000010 then 0xA
  else if a = 0x000018 ∨ a = 0x00001C then half a s.silicon.dieId.toNat
  else if a = 0x000020 ∨ a = 0x000024 then half a (s.clock.ts.toNat + s.clock.epoch.toNat * 2 ^ 48)
  else s.boot.stage.toNat + s.boot.fail.toNat * 2 ^ 8 + bit s.boot.spareRestored 16 + bit s.boot.lifeRestored 17

def readNeg (s : State) (a : Nat) : Nat :=
  if a = 0x010000 then s.boot.bmpVer.toNat
  else if a = 0x010004 then s.boot.credits.toNat
  else if a = 0x010008 ∨ a = 0x01000C then half a s.boot.chan.toNat
  else if a = 0x010010 then s.boot.rlpVer.toNat
  else s.boot.lanes.toNat

def readImg (s : State) (a : Nat) : Nat :=
  if a = 0x030010 then
    s.img.state.toNat + bit s.img.swapPending 2 + s.img.code.toNat * 2 ^ 8 + s.img.sect.toNat * 2 ^ 16
  else if a = 0x030020 then s.img.variant
  else half a (match s.img.live with | some b => fieldAt b 0x10 8 | none => 0)

def readPsc (s : State) (a : Nat) : Nat :=
  if a = 0x040000 then bit s.psc.run 0
  else if a = 0x040004 then
    let p := s.psc.issuing.getD 0
    bit s.psc.issuing.isSome 0 + bit s.psc.committed 1 + p % 4096 * 4 +
      bit (s.psc.issuing.isSome && (getPassage s p).spec) 14 + s.psc.attempt.toNat * 2 ^ 16
  else if a = 0x040008 ∨ a = 0x04000C then half a s.psc.step.toNat
  else if a = 0x040050 then specCredits s
  else if a < 0x040068 then half a s.psc.specRet.toNat
  else if a < 0x040070 then half a s.psc.undos.toNat
  else if a < 0x040108 then half a s.psc.idle.toNat
  else if a < 0x040110 then half a s.psc.issued.toNat
  else half a (Tab.get (0 : BitVec 64) s.psc.stalls ((a - 0x040110) / 8)).toNat

/-- Selected group or region of a slab page; without a live image no region has been laid out, and its registers read their reset values
(R314, R378). -/
def sumpSel (s : State) (slab : Nat) : Group :=
  let v := (liveReg s (0x100040 + 0x10000 * slab)).toNat
  if s.isZ64 && s.img.live.isNone then Group.closed else
  groupOf s (groupKey (8 * slab + fld v 2 0) (fld v 8 3))
/-- Spares and standing of a physical array by its place in the slab (R378). -/
def readSpares (s : State) (slab i : Nat) : Nat :=
  let p := s.silicon.cls.perSlab * slab + i
  let spare := List.lookup slab s.ras.spareFor
  let failed := (match logicalOf s p with | some a => s.ras.failed.contains a | none => false) || s.ras.subPend.contains p ||
    (s.isZ64 && decide (i < 8) && spare == some i)
  if s.silicon.cls.perSlab ≤ i then 0 else
  sparesLeft s p false + sparesLeft s p true * 16 + bit failed 8 +
    (if i = 8 then spare.getD 0 % 8 * 2 ^ 9 + bit spare.isSome 12 else 0)
def readSlab (s : State) (slab o : Nat) : Nat :=
  let g := sumpSel s slab
  let v := getVe s slab
  if o < 0x24 then readSpares s slab (o / 4)
  else if o = 0x44 then
    bit g.isOpen 0 + bit g.shadow 1 + g.rowBase % 512 * 4 + g.rowCount % 512 * 2 ^ 11 + lowBits 10 g.anchor * 2 ^ 20
  else if o = 0x48 then g.inflight % 2 ^ 24
  else if o = 0x4C then g.promotions % 2 ^ 24
  else if o = 0x50 then lo32 g.progress
  else if o = 0x54 then lo32 g.saturated
  else if o = 0x58 then lo32 g.floorLoss
  else if o = 0x5C then g.owner % 4096
  else if o < 0x88 then half o v.nz.toNat
  else if o < 0x90 then half o v.thr.toNat
  else if o < 0x98 then half o v.sat.toNat
  else if o = 0x98 then v.last.toNat
  else if o = 0xA0 then v.entries.length % 32
  else if o = 0xA4 then poolFree s slab % 1024
  else
    let p := s.silicon.cls.perSlab * slab + (o - 0x100) / 16
    if s.silicon.cls.perSlab ≤ (o - 0x100) / 16 then 0
    else half o (Tab.get (0 : BitVec 64) (if o % 16 < 8 then s.sump.floorTot else s.sump.satTot) p).toNat

def readBmp (s : State) (a : Nat) : Nat :=
  let ch := fld (liveReg s 0x200020).toNat 5 0
  if a < 0x200010 then half a s.bmp.lateRsp.toNat
  else if a < 0x200018 then half a s.bmp.reclaimed.toNat
  else if a < 0x200020 then half a s.bmp.retired.toNat
  else if a = 0x200024 then (getChan s ch).req % 65536 + (getChan s ch).wdata % 65536 * 2 ^ 16
  else (s.bmp.reqs.filter (fun r => r.ch == ch)).length % 2048

def readRlp (s : State) (a : Nat) : Nat :=
  if a = 0x210048 then bit s.rlp.phase 0
  else if a < 0x210058 then half a s.rlp.stale.toNat
  else if a < 0x210060 then half a s.rlp.reclaimed.toNat
  else if a < 0x210068 then let c := getRlp s ((a - 0x210060) / 4); c.tx % 65536 + c.rx % 65536 * 2 ^ 16
  else if a = 0x210068 then s.rlp.fbuf.length % 65536
  else s.rlp.lanes.toNat

def readRope (s : State) (a : Nat) : Nat :=
  if a < 0x220008 then half a s.rope.holds.toNat
  else if a = 0x220008 then sumNat ((List.range 8).map (fun h => (4 - (hopLength h)) * 2 ^ (4 * h)))
  else s.rope.holding.toNat
where
  hopLength (h : Nat) : Nat := (Tab.get [] s.rope.hops h).length

def readInt (s : State) (a : Nat) : Nat :=
  if a < 0x240400 then
    let n := (a - 0x240000) / 4
    intConfig s n % 2 ^ 19 + bit (intPending s n) 19 + bit (intActive s n) 20 + Tab.get 0 s.intc.atgt n % 8 * 2 ^ 21
  else if a < 0x240500 then fld s.intc.sw.toNat (32 * ((a - 0x240450) / 4) + 31) (32 * ((a - 0x240450) / 4))
  else
    let t := (a - 0x240500) / 16
    let cur := intCurrent s t
    (match List.lookup t s.intc.held with | some n => n % 256 + 2 ^ 8 | none => 0) + cur.getD 0 * 2 ^ 16 + bit cur.isNone 24

def readEvt (s : State) (req : Req) (a : Nat) : Nat :=
  let q := getReq s req
  if a = 0x250000 then s.evt.head.toNat
  else if a = 0x250004 then s.evt.tail.toNat
  else if a < 0x250010 then half a s.evt.overflow.toNat
  else if a = 0x250014 then s.clock.epoch.toNat
  else if a < 0x250034 then fld q.record.toNat (32 * ((a - 0x250024) / 4) + 31) (32 * ((a - 0x250024) / 4))
  else if a = 0x250034 then q.ridx.toNat
  else bit q.copied 0

def readMbx (s : State) (req : Req) (a : Nat) : Nat :=
  let q := getReq s req
  if a = 0x260008 then lo32 q.pval.toNat
  else if a = 0x26000C then q.pval.toNat / 2 ^ 32
  else if a = 0x260014 then lo32 q.sval.toNat
  else if a = 0x260018 then q.sval.toNat / 2 ^ 32
  else if a = 0x26001C then q.sseq.toNat
  else if a = 0x260020 then bit q.sready 0 + q.smbx.toNat * 16
  else sumNat ((List.range 16).map (fun n => bit (getMbx s n).ready n))

def readRas (s : State) (a : Nat) : Nat :=
  let sel := (liveReg s 0x280060).toNat
  if a = 0x280020 then
    bit s.ras.audit 0 + bit s.psc.suspended.isSome 1 + bit s.ras.updFail.isSome 2 + bit (gatherStuck s) 3 + bit s.ras.lostWait 4 + bit s.psc.limited 5
  else if a < 0x280038 then half a s.ras.reclaimed.toNat
  else if a = 0x280048 then (match s.ras.updFail with | some f => f.tensor % 1024 | none => 0)
  else if a = 0x28004C then (match s.ras.updFail with | some f => f.brow % 4096 + f.bcol % 4096 * 2 ^ 12 | none => 0)
  else if a = 0x280050 then (match s.psc.suspended with | some p => p % 4096 + 2 ^ 12 | none => 0)
  else if a = 0x280054 then s.ras.suspAt % 2 ^ 22
  else if a = 0x280064 then
    leakyCount s (fld sel 3 0) (fld sel 19 4) % 65536 + bit (isPermanent s (fld sel 3 0) (fld sel 19 4)) 16
  else if a = 0x280074 then spareLen s
  else let x := getArray s ((a - 0x280100) / 4); bit x.cutFlag 0 + x.entered % 64 * 2

def readLife (s : State) (a : Nat) : Nat :=
  if a = 0x290004 then bit s.life.ready 0 + bit s.life.busy 1 + bit s.life.disc 2
  else if a = 0x29001C then s.life.telW.toNat
  else (Tab.get (0 : BitVec 16) s.life.sense ((a - 0x290100) / 4)).toNat

def readPwr (s : State) : Nat :=
  s.pwr.cap.toNat + estWatts s.pwr.est * 2 ^ 10 + bubbleCount s % 16 * 2 ^ 22 + bit s.pwr.paused 26 +
    bit (decide (0 < s.pwr.r) || s.pwr.waiting) 27

def readCc (s : State) (n o : Nat) : Nat :=
  let c := getCore s n
  if o = 0 then bit c.hold 0
  else if o = 4 then bit c.hold 0 + bit c.wfi 1 + bit c.npop 2 + c.notify.length % 32 * 16
  else if o = 8 then c.pc.toNat
  else if o < 0x80 then (Tab.get (0 : Word) c.cnt ((o - 0x40) / 4)).toNat
  else (getScalar s n ((o - 0x100) / 4)).toNat

/-- Read-only registers, and the writable ones whose value is kept outside the register storage. -/
def readKept (s : State) (req : Req) (a : Nat) : Nat :=
  let p := a / 65536
  if p = 0x00 then readGlb s a
  else if p = 0x01 then readNeg s a
  else if p = 0x02 then (if a = 0x02000C then s.regs.applied.toNat + bit s.regs.pin 16 else s.regs.applyCnt.toNat)
  else if p = 0x03 then readImg s a
  else if p = 0x04 then readPsc s a
  else if p = 0x05 then (if a = 0x050034 then s.gov.logWidx.toNat
    else govStateWord s ((liveReg s 0x050040).toNat % 1024) ((a - 0x050044) / 4))
  else if p < 0x18 then readSlab s (p - 0x10) (a % 65536)
  else if p = 0x20 then readBmp s a
  else if p = 0x21 then readRlp s a
  else if p = 0x22 then readRope s a
  else if p = 0x24 then readInt s a
  else if p = 0x25 then readEvt s req a
  else if p = 0x26 then readMbx s req a
  else if p = 0x28 then readRas s a
  else if p = 0x29 then readLife s a
  else if p = 0x2A then readPwr s
  else readCc s (p - 0x30) (a % 65536)

/-- A writable register whose value is not in the register storage. -/
def keptElsewhere (a : Nat) : Bool :=
  a == 0x040000 || decide (0x050044 ≤ a ∧ a < 0x050054) || decide (0x240000 ≤ a ∧ a < 0x240400) || a == 0x250004 ||
    a == 0x260008 || a == 0x26000C || firstPage a == 0x300000 || decide (0x300100 ≤ firstPage a ∧ firstPage a < 0x300200)

/-- Read windows: core memories, the last spare snapshot, the save buffer (R293, R351, R385). -/
def inCoreWindow (a : Nat) : Bool := decide (0x308000 ≤ firstPage a ∧ firstPage a < 0x310000)
def inSpareWindow (a : Nat) : Bool := decide (0x281000 ≤ a ∧ a < 0x282000)
def inLifeWindow (a : Nat) : Bool := decide (0x298000 ≤ a ∧ a < 0x299800)

/-- What a read of an aligned address returns (R10, R11, R361). -/
def readReg (s : State) (req : Req) (a : Nat) : Word :=
  if inCoreWindow a then BitVec.ofNat 32 (windowRead s (a / 65536 - 0x30) (a % 65536))
  else if inSpareWindow a then BitVec.ofNat 32 (fieldAt s.ras.window (a - 0x281000) 4)
  else if inLifeWindow a then BitVec.ofNat 32 (fieldAt s.life.saveBuf (a - 0x298000) 4)
  else match regRow s a with
  | none => 0
  | some r =>
    match r.acc with
    | .wo => 0
    | .ra _ => shadowReg s a
    | .ro => BitVec.ofNat 32 (readKept s req a)
    | .rw => if keptElsewhere a then BitVec.ofNat 32 (readKept s req a) else liveReg s a

/-- A read by a requester: the answer, and the word it holds for its next access (R363). -/
def readAccess (s : State) (req : Req) (a : Nat) : State :=
  let q := getReq s req
  let v := match q.hold with
    | some (b, w) => if b = a then w else readReg s req a
    | none => readReg s req a
  let hold := if pairLow a && (regRow s a).isSome then some (a + 4, readReg s req (a + 4)) else none
  setReq s req { q with answer := v, hold := hold }

/-! APPLY and the lock (R367 to R370). -/

/-- The APPLY group of an address. -/
def raGroup (s : State) (a : Nat) : Option Nat :=
  match regRow s a with
  | some r => match r.acc with | .ra g => some g | _ => none
  | none => none
/-- A step has started and not reached its boundary; its attempts may have been aborted (R21). -/
def inStep (s : State) : Bool := s.psc.stepOn || s.psc.repeats
/-- What becomes live of a register: its shadow, or no stated value for an error-feedback register within a step (R252, log 8). -/
def applied (s : State) (a : Nat) : Word :=
  if inStep s && raGroup s a == some 7 then Config.freeReg s.freeCtr a else shadowReg s a
/-- The shadows of the named groups become live; bits 8 to 15 name no group. -/
def applyGroups (s : State) (mask : Nat) (pin : Bool) : State :=
  if mask % 256 = 0 then s else
  let named := s.regs.shadow.filter (fun kv => match raGroup s kv.1 with | some g => bitAt mask g | none => false)
  let t := named.foldl (fun u kv => setLive u kv.1 (applied s kv.1)) s
  let t := if inStep s && bitAt mask 7 then bumpFree t else t
  { t with regs := { t.regs with applied := BitVec.ofNat 16 (mask % 256), pin := pin, applyCnt := t.regs.applyCnt + 1 } }
/-- The groups that the pin names (R369). -/
def pinMask (s : State) : Nat := fld (liveReg s 0x020004).toNat 15 0
/-- A reserved group among those of the pin is reported against its mask (log 30). -/
def pinReserved (s : State) : State := if pinMask s / 256 = 0 then s else reservedWrite s 0 0x020004
/-- A write of `APL_APPLY`; groups that the pin names in its CCLK make one APPLY with it, of the union (R368). -/
def aplApply (s : State) (req : Req) (mask : Nat) (w : ApplyWrite) : State :=
  let s := applyGroups s (if w.withPin then mask ||| pinMask s else mask) (w.withPin && pinMask s % 256 != 0)
  let s := if w.out then { s with pins := { s.pins with applyOut := true } } else s
  let s := if mask / 256 % 256 = 0 then s else reservedWrite s req 0x020000
  if w.withPin then pinReserved s else s
/-- The pin applies the groups of its mask. -/
def applyPin (s : State) : State :=
  if s.boot.stage = 0 then s else pinReserved (applyGroups s (pinMask s) true)
/-- Set the lock; ready may follow (R323). -/
def lockSet (s : State) : State := checkReady (setLive s 0x020008 1)

/-- Registers that the lock freezes. -/
def frozen (s : State) (a : Nat) : Bool :=
  locked s && (decide (0x000030 ≤ a ∧ a < 0x000040) || decide (0x030100 ≤ a ∧ a < 0x030184))

/-! Writes. -/

/-- No `reserved_write` of its own has been raised for a write between two states: the control port raises nothing else but what a
write of `PSC_CTRL` may, which raises no `reserved_write` (R15, R199). -/
def quiet (s t : State) (a : Nat) : Bool := a == 0x040000 || Tab.get (0 : Word) t.evt.seq 0 == Tab.get (0 : Word) s.evt.seq 0
/-- One `reserved_write` for the write, if any field of it calls for one. -/
def oneReserved (s t : State) (req : Req) (a : Nat) (bad : Bool) : State := if bad && quiet s t a then reservedWrite t req a else t

/-- A register without behaviour of its own: its fields take what is written, but for those given a reserved value. -/
def plainWrite (s : State) (req : Req) (a : Nat) (v : Nat) (r : RegRow) : State :=
  let keep := reservedFields a v
  let put := fun (old : Word) => (old &&& BitVec.ofNat 32 (all32 - r.wmask ||| keep)) ||| BitVec.ofNat 32 (v &&& r.wmask &&& (all32 - keep))
  let t := match r.acc with
    | .rw => setLive s a (put (liveReg s a))
    | .ra _ => setShadow s a (put (shadowReg s a))
    | _ => s
  oneReserved s (if a = 0x250010 then sampleLevels t else t) req a (decide (keep ≠ 0))

def pscVersionWrite (s : State) (req : Req) (v : Nat) : State :=
  versionRegister s req (bitAt v 0) (fld v 4 1) (fld v 14 5) (fld v 24 15)
def mbxValue (s : State) (req : Req) (hi : Bool) (v : Word) : State :=
  let q := getReq s req
  let old := q.pval.toNat
  setReq s req { q with pval := BitVec.ofNat 64 (if hi then old % 2 ^ 32 + v.toNat * 2 ^ 32 else old / 2 ^ 32 * 2 ^ 32 + v.toNat) }
/-- `PSC_CTRL.run`: a write of 0 while a step is in progress is ignored (R199). -/
def runWrite (s : State) (v : Nat) : State :=
  if bitAt v 0 then runSet s else if s.psc.stepOn then s else { s with psc := { s.psc with run := false } }
/-- `GLB_BOOT_CTRL`: both bits act on the stage the write finds; one event for what finds the wrong one. -/
def bootCtrl (s : State) (req : Req) (v : Nat) : State :=
  let st := s.boot.stage
  let t := if bitAt v 0 && st == 3 then sparesDone s req else if bitAt v 1 && st == 7 then lifeDone s req else s
  oneReserved s t req 0x000044 ((bitAt v 0 && st != 3) || (bitAt v 1 && st != 7))
/-- `RAS_RETRY`: both bits, with one event for what lacks its condition. -/
def retryWrite (s : State) (req : Req) (v : Nat) : State :=
  let up := s.ras.updFail.isSome
  let ga := gatherStuck s
  let t := if bitAt v 0 && up then retryUpdate s req else s
  let t := if bitAt v 1 && ga then retryGather t req else t
  oneReserved s t req 0x280044 ((bitAt v 0 && !up) || (bitAt v 1 && !ga))

/-- Registers with behaviour of their own; none for any other. `v` is the written value without reserved bits. DESIGN CHOICE: of one write
of `IMG_CTRL` that asks for both, the load comes before the swap (R179, log 132). -/
def trigger (s : State) (req : Req) (a : Nat) (v : Nat) : Option State :=
  let w := BitVec.ofNat 32 v
  if a = 0x000044 then some (bootCtrl s req v)
  else if a = 0x020000 then some (aplApply s req (fld v 15 0) { out := bitAt v 16, withPin := false })
  else if a = 0x020008 then some (if bitAt v 0 then lockSet s else s)
  else if a = 0x03000C then
    let t := if bitAt v 0 then imgLoad s else s
    some (if bitAt v 1 then imgSwap t else t)
  else if a = 0x040000 then some (runWrite s v)
  else if a = 0x040010 then some (pscResolve s req (fld v 7 0) (bitAt v 8))
  else if a = 0x040014 then some (pscVersionWrite s req v)
  else if a = 0x040080 then some (if bitAt v 12 then preempt s (fld v 11 0) else s)
  else if 0x050044 ≤ a ∧ a < 0x050054 then some (govStateWrite s req ((a - 0x050044) / 4) v)
  else if 0x240000 ≤ a ∧ a < 0x240400 then some (intSrcWrite s ((a - 0x240000) / 4) w)
  else if 0x240410 ≤ a ∧ a < 0x240428 then some (intSwset s ((a - 0x240410) / 4) w)
  else if 0x240430 ≤ a ∧ a < 0x240448 then some (intSwclr s ((a - 0x240430) / 4) w)
  else if 0x240500 ≤ a ∧ a < 0x240580 ∧ a % 16 = 8 then some (intAck s req ((a - 0x240500) / 16) v)
  else if 0x240500 ≤ a ∧ a < 0x240580 ∧ a % 16 = 12 then some (intEoi s req ((a - 0x240500) / 16) v)
  else if a = 0x250004 then some (evtTail s req w)
  else if a = 0x250020 then some (evtLatch s req)
  else if a = 0x260000 then some (mbxOpen s req v)
  else if a = 0x260004 then some (mbxPost s req v)
  else if a = 0x260008 ∨ a = 0x26000C then some (mbxValue s req (a == 0x26000C) w)
  else if a = 0x260010 then some (mbxSnap s req v)
  else if a = 0x280040 then some (if bitAt v 0 then rasOutcome s req (bitAt v 1) (bitAt v 2) else s)
  else if a = 0x280044 then some (retryWrite s req v)
  else if a = 0x280070 then some (if bitAt v 0 then spareSnap s else s)
  else if a = 0x290000 then some (if bitAt v 0 then lifeSave s req else s)
  else if firstPage a = 0x300000 then
    some (if bitAt v 0 then ccHold s (a / 65536 - 0x30) else ccRelease s (a / 65536 - 0x30))
  else if 0x300100 ≤ firstPage a ∧ firstPage a < 0x300200 then
    some (setScalar s (a / 65536 - 0x30) ((a % 65536 - 0x100) / 4) w)
  else none

/-- A write of a full word at an aligned address (R10 to R15, R361, R370). -/
def writeReg (s : State) (req : Req) (a : Nat) (v : Word) : State :=
  if inCoreWindow a then windowWrite s req (a / 65536 - 0x30) (a % 65536) v
  else if inSpareWindow a then spareWrite s req (a - 0x281000) v
  else if inLifeWindow a then lifeWrite s req (a - 0x298000) v
  else match regRow s a with
  | none => if v = 0 then s else reservedWrite s req a
  | some r =>
    if frozen s a then reservedWrite s req a else
    let used := v.toNat &&& r.dmask
    let t := match trigger s req a used with
      | some t => t
      | none => plainWrite s req a used r
    oneReserved s t req a (used != v.toNat)

/-- A write with its byte enables (R361). -/
def regWrite (s : State) (req : Req) (a : Nat) (be : BitVec 4) (v : Word) : State :=
  if be ≠ 0xF then reservedWrite s req (a / 4 * 4) else writeReg s req (a / 4 * 4) v

/-! Meanings. -/

def execRegisterWrite (req : Req) (addr : BitVec 24) (be : BitVec 4) (v : Word) (s : State) : Result :=
  .next (portAccess s req (fun t => regWrite t req addr.toNat be v))
def execCoherentLowRead (req : Req) (addr : BitVec 24) (s : State) : Result :=
  .next (if s.boot.stage = 0 then s else readAccess s req (addr.toNat / 4 * 4))
def execAplApply (req : Req) (mask : BitVec 16) (out : ApplyWrite) (s : State) : Result :=
  .next (portAccess s req (fun t => aplApply t req mask.toNat out))
def execApplyInPulse (s : State) : Result := .next (applyPin s)
def execAplLockSet (req : Req) (s : State) : Result := .next (portAccess s req (fun t => lockSet t))
def execApplyOutPulseEnd (s : State) : Result := .next { s with pins := { s.pins with applyOut := false } }

end Sys2Proof.Machine
end

