-- ==== Sys2Proof/Machine/Rv32.lean ====
section
/-! DEFINITION. RV32IMC as words: the expansion of compressed instructions, field extraction, and the results of the
integer instructions (R291, log 15). -/

namespace Sys2Proof.Machine

/-! Fields of a 32-bit instruction. -/

def rvOp (w : Nat) : Nat := fld w 6 0
def rvRd (w : Nat) : Nat := fld w 11 7
def rvF3 (w : Nat) : Nat := fld w 14 12
def rvRs1 (w : Nat) : Nat := fld w 19 15
def rvRs2 (w : Nat) : Nat := fld w 24 20
def rvF7 (w : Nat) : Nat := fld w 31 25
/-- A two's-complement value of `n` bits as a word. -/
def sextWord (n x : Nat) : Word := BitVec.ofInt 32 (signed n x)
def immI (w : Nat) : Word := sextWord 12 (fld w 31 20)
def immS (w : Nat) : Word := sextWord 12 (fld w 31 25 * 32 + fld w 11 7)
def immB (w : Nat) : Word := sextWord 13 (fld w 31 31 * 4096 + fld w 7 7 * 2048 + fld w 30 25 * 32 + fld w 11 8 * 2)
def immU (w : Nat) : Word := BitVec.ofNat 32 (fld w 31 12 * 4096)
def immJ (w : Nat) : Word :=
  sextWord 21 (fld w 31 31 * 2 ^ 20 + fld w 19 12 * 4096 + fld w 20 20 * 2048 + fld w 30 21 * 2)

/-! Encoders for the expansion. -/

def encI (op f3 rd rs1 imm : Nat) : Nat := op + rd * 2 ^ 7 + f3 * 2 ^ 12 + rs1 * 2 ^ 15 + imm % 4096 * 2 ^ 20
def encR (op f3 f7 rd rs1 rs2 : Nat) : Nat := op + rd * 2 ^ 7 + f3 * 2 ^ 12 + rs1 * 2 ^ 15 + rs2 * 2 ^ 20 + f7 * 2 ^ 25
def encS (op f3 rs1 rs2 imm : Nat) : Nat :=
  op + imm % 32 * 2 ^ 7 + f3 * 2 ^ 12 + rs1 * 2 ^ 15 + rs2 * 2 ^ 20 + imm / 32 % 128 * 2 ^ 25
def encB (f3 rs1 rs2 imm : Nat) : Nat :=
  0x63 + fld imm 11 11 * 2 ^ 7 + fld imm 4 1 * 2 ^ 8 + f3 * 2 ^ 12 + rs1 * 2 ^ 15 + rs2 * 2 ^ 20 + fld imm 10 5 * 2 ^ 25 +
    fld imm 12 12 * 2 ^ 31
def encJ (rd imm : Nat) : Nat :=
  0x6F + rd * 2 ^ 7 + fld imm 19 12 * 2 ^ 12 + fld imm 11 11 * 2 ^ 20 + fld imm 10 1 * 2 ^ 21 + fld imm 20 20 * 2 ^ 31

/-- A signed field as an immediate of `n` bits. -/
def immBits (n from_ x : Nat) : Nat := lowBits n (signed from_ x)

/-! Compressed instructions of RV32C without floating point. -/

def cJump (h : Nat) : Nat :=
  immBits 21 12 (fld h 12 12 * 2 ^ 11 + fld h 11 11 * 2 ^ 4 + fld h 10 9 * 2 ^ 8 + fld h 8 8 * 2 ^ 10 + fld h 7 7 * 2 ^ 6 +
    fld h 6 6 * 2 ^ 7 + fld h 5 3 * 2 + fld h 2 2 * 2 ^ 5)
def cBranch (h : Nat) : Nat :=
  immBits 13 9 (fld h 12 12 * 2 ^ 8 + fld h 11 10 * 2 ^ 3 + fld h 6 5 * 2 ^ 6 + fld h 4 3 * 2 + fld h 2 2 * 2 ^ 5)
def cImm6 (h : Nat) : Nat := fld h 12 12 * 32 + fld h 6 2

def expand0 (h : Nat) : Option Nat :=
  let rd := 8 + fld h 4 2
  let rs := 8 + fld h 9 7
  let wImm := fld h 12 10 * 8 + fld h 6 6 * 4 + fld h 5 5 * 64
  let sp := fld h 12 11 * 16 + fld h 10 7 * 64 + fld h 6 6 * 4 + fld h 5 5 * 8
  match fld h 15 13 with
  | 0 => if sp = 0 then none else some (encI 0x13 0 rd 2 sp)
  | 2 => some (encI 0x03 2 rd rs wImm)
  | 6 => some (encS 0x23 2 rs rd wImm)
  | _ => none

def expandAlu (h : Nat) : Option Nat :=
  let rd := 8 + fld h 9 7
  let rs2 := 8 + fld h 4 2
  match fld h 11 10 with
  | 0 => if bitAt h 12 then none else some (encI 0x13 5 rd rd (fld h 6 2))
  | 1 => if bitAt h 12 then none else some (encI 0x13 5 rd rd (0x400 + fld h 6 2))
  | 2 => some (encI 0x13 7 rd rd (immBits 12 6 (cImm6 h)))
  | _ => if bitAt h 12 then none else
    match fld h 6 5 with
    | 0 => some (encR 0x33 0 0x20 rd rd rs2)
    | 1 => some (encR 0x33 4 0 rd rd rs2)
    | 2 => some (encR 0x33 6 0 rd rd rs2)
    | _ => some (encR 0x33 7 0 rd rd rs2)

def expand1 (h : Nat) : Option Nat :=
  let rd := fld h 11 7
  let imm := immBits 12 6 (cImm6 h)
  match fld h 15 13 with
  | 0 => some (encI 0x13 0 rd rd imm)
  | 1 => some (encJ 1 (cJump h))
  | 2 => some (encI 0x13 0 rd 0 imm)
  | 3 =>
    if rd = 2 then
      let x := fld h 12 12 * 2 ^ 9 + fld h 6 6 * 2 ^ 4 + fld h 5 5 * 2 ^ 6 + fld h 4 3 * 2 ^ 7 + fld h 2 2 * 2 ^ 5
      if x = 0 then none else some (encI 0x13 0 2 2 (immBits 12 10 x))
    else if cImm6 h = 0 then none
    else some (0x37 + rd * 2 ^ 7 + immBits 20 6 (cImm6 h) * 4096)
  | 4 => expandAlu h
  | 5 => some (encJ 0 (cJump h))
  | 6 => some (encB 0 (8 + fld h 9 7) 0 (cBranch h))
  | _ => some (encB 1 (8 + fld h 9 7) 0 (cBranch h))

def expand2 (h : Nat) : Option Nat :=
  let rd := fld h 11 7
  let rs2 := fld h 6 2
  match fld h 15 13 with
  | 0 => if bitAt h 12 then none else some (encI 0x13 1 rd rd rs2)
  | 2 => if rd = 0 then none else
    some (encI 0x03 2 rd 2 (fld h 12 12 * 32 + fld h 6 4 * 4 + fld h 3 2 * 64))
  | 4 =>
    if !bitAt h 12 then
      if rs2 = 0 then (if rd = 0 then none else some (encI 0x67 0 0 rd 0))
      else some (encR 0x33 0 0 rd 0 rs2)
    else if rs2 = 0 then (if rd = 0 then some 0x00100073 else some (encI 0x67 0 1 rd 0))
    else some (encR 0x33 0 0 rd rd rs2)
  | 6 => some (encS 0x23 2 2 rs2 (fld h 12 9 * 4 + fld h 8 7 * 64))
  | _ => none

/-- The 32-bit instruction that a compressed one stands for. -/
def expandC (h : Nat) : Option Nat :=
  match h % 4 with
  | 0 => expand0 h
  | 1 => expand1 h
  | 2 => expand2 h
  | _ => none

/-! Results. -/

def ltS (a b : Word) : Bool := decide (a.toInt < b.toInt)
def boolWord (b : Bool) : Word := if b then 1 else 0

/-- Base integer operation, by funct3; `alt` selects SUB and SRA. -/
def aluOp (f3 : Nat) (alt : Bool) (a b : Word) : Word :=
  let n := b.toNat % 32
  match f3 with
  | 0 => if alt then a - b else a + b
  | 1 => a <<< n
  | 2 => boolWord (ltS a b)
  | 3 => boolWord (decide (a.toNat < b.toNat))
  | 4 => a ^^^ b
  | 5 => if alt then a.sshiftRight n else a >>> n
  | 6 => a ||| b
  | _ => a &&& b

/-- M extension, by funct3; division by zero and overflow as the unprivileged specification states. -/
def mulOp (f3 : Nat) (a b : Word) : Word :=
  let hi := fun (x : Int) => BitVec.ofInt 32 (x / 2 ^ 32)
  match f3 with
  | 0 => a * b
  | 1 => hi (a.toInt * b.toInt)
  | 2 => hi (a.toInt * (b.toNat : Int))
  | 3 => hi ((a.toNat : Int) * (b.toNat : Int))
  | 4 => if b = 0 then BitVec.allOnes 32 else BitVec.ofInt 32 (a.toInt.tdiv b.toInt)
  | 5 => if b = 0 then BitVec.allOnes 32 else BitVec.ofNat 32 (a.toNat / b.toNat)
  | 6 => if b = 0 then a else BitVec.ofInt 32 (a.toInt.tmod b.toInt)
  | _ => if b = 0 then a else BitVec.ofNat 32 (a.toNat % b.toNat)

/-- A branch's condition; none for a reserved funct3. -/
def branchTaken (f3 : Nat) (a b : Word) : Option Bool :=
  match f3 with
  | 0 => some (a == b)
  | 1 => some (a != b)
  | 4 => some (ltS a b)
  | 5 => some (!ltS a b)
  | 6 => some (decide (a.toNat < b.toNat))
  | 7 => some (decide (b.toNat ≤ a.toNat))
  | _ => none

/-- A loaded value of a width, extended; none for a reserved funct3: bytes, and whether it is signed. -/
def loadShape (f3 : Nat) : Option (Nat × Bool) :=
  match f3 with
  | 0 => some (1, true) | 1 => some (2, true) | 2 => some (4, false) | 4 => some (1, false) | 5 => some (2, false)
  | _ => none
def storeBytes (f3 : Nat) : Option Nat :=
  match f3 with | 0 => some 1 | 1 => some 2 | 2 => some 4 | _ => none

end Sys2Proof.Machine
end

