-- ==== Sys2Proof/Machine/ControlCore.lean ====
section
/-! DEFINITION. The control cores: RV32IMC with Zicsr in machine mode, their memory map and traps, and the engine
instructions (R291 to R297; RISC-V itself by log 15). -/

namespace Sys2Proof.Machine

/-! Registers and counts. -/

def Core.reg (c : Core) (r : Nat) : Word := if r = 0 then 0 else Tab.get 0 c.x r
def Core.setReg (c : Core) (r : Nat) (v : Word) : Core := if r = 0 then c else { c with x := c.x.put r v }

/-- The core's machine external interrupt: a delivery is presented to its target (R292). -/
def meip (s : State) (n : Nat) : Bool := (List.lookup n s.intc.held).isSome
/-- A core that executes: not held, and not waiting in WFI for an interrupt. -/
def coreRuns (s : State) (n : Nat) : Bool :=
  let c := getCore s n
  !c.hold && (!c.wfi || (c.meie && meip s n))

/-- One instruction has ended at `next`; `csr` is the CSR it wrote, whose count it has set. -/
def retire (s : State) (n : Nat) (next : Word) (csr : Nat) (f : Core → Core) : State :=
  let c := getCore s n
  let d := f c
  setCore s n { d with pc := next, ztimeh := if csr = 0xCC0 then d.ztimeh else none, wfi := false, npop := false,
                       minstret := if csr = 0xB02 ∨ csr = 0xB82 then d.minstret else c.minstret + 1 }
/-- CCLK that an instruction takes, at least one (R291, log 7). -/
def coreTick (s : State) (n csr : Nat) : State :=
  let c := getCore s n
  let s := bumpFree s
  if c.hold || csr == 0xB00 || csr == 0xB80 then s
  else setCore s n { c with mcycle := c.mcycle + 1 + BitVec.ofNat 64 (Config.cclkExtra (s.freeCtr - 1)) }

/-- A synchronous trap: `cc_trap`, then on at mtvec (R292). -/
def trapCore (s : State) (n cause : Nat) (tval : Word) : State :=
  let c := getCore s n
  let t := setCore s n { c with mepc := c.pc, mcause := BitVec.ofNat 32 cause, mtval := tval, mpie := c.mie, mie := false,
                                pc := c.mtvec, ztimeh := none, wfi := false, npop := false }
  raise t (0x18 + n) Ev.ccTrap (BitVec.ofNat 24 (cause % 32 * 2 ^ 19 + c.pc.toNat % 2 ^ 16))
def illegal (s : State) (n w : Nat) : State := trapCore s n 2 (BitVec.ofNat 32 w)

/-! Memory (R292). -/

inductive Region where
  | imem | dmem | engine | none
  deriving DecidableEq, Repr
def regionOf (a : Nat) : Region :=
  if a < 0x10000 then .imem else if a < 0x20000 then .dmem else if 0x1000000 ≤ a ∧ a < 0x2000000 then .engine else .none

/-- The requester a core is (R363). -/
def coreReq (n : Fin 4) : Req := ⟨n.val + 1, by omega⟩

def loadValue (signed_ : Bool) (k v : Nat) : Word := if signed_ then sextWord (8 * k) v else BitVec.ofNat 32 v
/-- A load of `k` bytes into rd. -/
def coreLoad (s : State) (n : Fin 4) (next : Word) (rd : Nat) (a : Nat) (k : Nat) (sgn : Bool) : State :=
  let put := fun (t : State) (v : Nat) => retire t n.val next 0 (fun c => c.setReg rd (loadValue sgn k v))
  match regionOf a with
  | .none => trapCore s n.val 5 (BitVec.ofNat 32 a)
  | .engine =>
    if k ≠ 4 ∨ a % 4 ≠ 0 then trapCore s n.val 5 (BitVec.ofNat 32 a)
    else
      let t := readAccess s (coreReq n) (a - 0x1000000)
      put t (getReq t (coreReq n)).answer.toNat
  | r =>
    if a % k ≠ 0 then trapCore s n.val 4 (BitVec.ofNat 32 a)
    else put s (coreMemNat s n.val (r == .dmem) (a % 0x10000) k)
/-- A store of the low `k` bytes of a register. -/
def coreStore (s : State) (n : Fin 4) (next : Word) (a k : Nat) (v : Word) : State :=
  let done := fun (t : State) => retire t n.val next 0 id
  match regionOf a with
  | .engine =>
    if k ≠ 4 ∨ a % 4 ≠ 0 then trapCore s n.val 7 (BitVec.ofNat 32 a)
    else portAccess (done s) (coreReq n) (fun t => writeReg t (coreReq n) (a - 0x1000000) v)
  | .dmem =>
    if a % k ≠ 0 then trapCore s n.val 6 (BitVec.ofNat 32 a)
    else done (coreMemWrite s n.val true (a % 0x10000) (leBytes k v.toNat))
  | _ => trapCore s n.val 7 (BitVec.ofNat 32 a)

/-! CSRs (R291). -/

def timeWord (s : State) (hi : Bool) : Word :=
  BitVec.ofNat 32 (if hi then s.clock.ts.toNat / 2 ^ 32 + s.clock.epoch.toNat * 2 ^ 16 else s.clock.ts.toNat % 2 ^ 32)
/-- A listed CSR's value. -/
def csrRead (s : State) (n k : Nat) : Option Word :=
  let c := getCore s n
  let half := fun (x : BitVec 64) (hi : Bool) => if hi then x.extractLsb' 32 32 else x.extractLsb' 0 32
  match k with
  | 0x300 => some (BitVec.ofNat 32 (0x1800 + (if c.mie then 8 else 0) + (if c.mpie then 128 else 0)))
  | 0x301 => some 0x40801104
  | 0x304 => some (if c.meie then 0x800 else 0)
  | 0x344 => some (if meip s n then 0x800 else 0)
  | 0x305 => some c.mtvec
  | 0x340 => some c.mscratch
  | 0x341 => some c.mepc
  | 0x342 => some c.mcause
  | 0x343 => some c.mtval
  | 0xB00 => some (half c.mcycle false)
  | 0xB80 => some (half c.mcycle true)
  | 0xB02 => some (half c.minstret false)
  | 0xB82 => some (half c.minstret true)
  | 0xF14 => some (BitVec.ofNat 32 n)
  | 0xCC0 => some (timeWord s false)
  | 0xCC1 => some (match c.ztimeh with | some v => v | none => timeWord s true)
  | _ => none
/-- A write of a listed CSR; read-only fields and registers keep. -/
def csrWrite (c : Core) (k : Nat) (v : Word) : Core :=
  let low := fun (x : BitVec 64) => (x.extractLsb' 32 32) ++ v
  let high := fun (x : BitVec 64) => v ++ (x.extractLsb' 0 32)
  match k with
  | 0x300 => { c with mie := v.getLsbD 3, mpie := v.getLsbD 7 }
  | 0x304 => { c with meie := v.getLsbD 11 }
  | 0x305 => { c with mtvec := v &&& 0xFFFFFFFC }
  | 0x340 => { c with mscratch := v }
  | 0x341 => { c with mepc := v &&& 0xFFFFFFFE }
  | 0x342 => { c with mcause := v }
  | 0x343 => { c with mtval := v }
  | 0xB00 => { c with mcycle := low c.mcycle }
  | 0xB80 => { c with mcycle := high c.mcycle }
  | 0xB02 => { c with minstret := low c.minstret }
  | 0xB82 => { c with minstret := high c.minstret }
  | _ => c
/-- The CSR whose count or sample an instruction sets: one it writes, or ztime where it reads it. -/
def csrTouched (w : Nat) : Nat :=
  let k := fld w 31 20
  let f := rvF3 w
  if rvOp w ≠ 0x73 ∨ f % 4 = 0 then 0
  else if k = 0xCC0 then k
  else if f % 4 = 1 ∨ rvRs1 w ≠ 0 then k else 0
def csrOp (s : State) (n : Nat) (next : Word) (w word : Nat) : State :=
  let k := fld w 31 20
  let f := rvF3 w
  let c := getCore s n
  let src := if f < 4 then c.reg (rvRs1 w) else BitVec.ofNat 32 (rvRs1 w)
  let writes := f % 4 = 1 ∨ rvRs1 w ≠ 0
  match csrRead s n k with
  | none => illegal s n word
  | some old =>
    if writes ∧ 3 ≤ k / 1024 then illegal s n word else
    let v := if f % 4 = 1 then src else if f % 4 = 2 then old ||| src else old &&& ~~~src
    retire s n next (csrTouched w) (fun c =>
      let d := if writes then csrWrite c k v else c
      let e := if k = 0xCC0 then { d with ztimeh := some (timeWord s true) } else d
      e.setReg (rvRd w) old)

/-! Engine instructions (R294 to R297). -/

/-- zsrd: rd takes scalar register `i`. -/
def coreZsrd (s : State) (n : Nat) (next : Word) (rd i : Nat) : State :=
  let v := getScalar s n i
  retire s n next 0 (fun c => c.setReg rd v)
/-- zswr. -/
def coreZswr (s : State) (n : Nat) (next : Word) (rs1 i : Nat) : State :=
  let v := (getCore s n).reg rs1
  retire (setScalar s n i v) n next 0 id
/-- znpop: waits while the queue is empty. -/
def coreZnpop (s : State) (n : Nat) (next : Word) (rd : Nat) : State :=
  let c := getCore s n
  match c.notify with
  | [] => setCore s n { c with wfi := false, npop := true, ztimeh := none }
  | v :: rest => sampleLevels (retire s n next 0 (fun c => { c with notify := rest }.setReg rd v))
/-- zncnt. -/
def coreZncnt (s : State) (n : Nat) (next : Word) (rd : Nat) : State :=
  retire s n next 0 (fun c => c.setReg rd (BitVec.ofNat 32 c.notify.length))
/-- zres: resolves a cond as a write of `PSC_RESOLVE` does (R205, R297). -/
def coreZres (s : State) (n : Nat) (next : Word) (rs1 word : Nat) : State :=
  let v := ((getCore s n).reg rs1).toNat
  if v % 256 = 0 ∨ 512 ≤ v then illegal s n word
  else resolveCond (retire s n next 0 id) (v % 256) (bitAt v 8)
/-- zevt: a software code. -/
def coreZevt (s : State) (n : Nat) (next : Word) (rs1 rs2 word : Nat) : State :=
  let code := ((getCore s n).reg rs1).toNat
  let pay := (getCore s n).reg rs2
  if code = 0x1801 ∨ (0x1880 ≤ code ∧ code ≤ 0x18FF) then raise (retire s n next 0 id) (0x18 + n) code (pay.setWidth 24)
  else illegal s n word
/-- zcnt: a software counter, saturating (R295). -/
def coreZcnt (s : State) (n : Nat) (next : Word) (rs1 i : Nat) : State :=
  retire s n next 0 (fun c => { c with cnt := c.cnt.upd 0 i (fun x => satAdd x (c.reg rs1).toNat) })

/-- An instruction of opcode custom-0. -/
def customOp (s : State) (n : Nat) (next : Word) (w : Nat) : State :=
  let rd := rvRd w
  let rs1 := rvRs1 w
  let imm := fld w 31 20
  match rvF3 w with
  | 0 => if rs1 = 0 ∧ imm < 64 then coreZsrd s n next rd imm else illegal s n w
  | 1 => if rd = 0 ∧ imm < 64 then coreZswr s n next rs1 imm else illegal s n w
  | 2 => if rs1 = 0 ∧ imm = 0 then coreZnpop s n next rd else illegal s n w
  | 3 => if rs1 = 0 ∧ imm = 0 then coreZncnt s n next rd else illegal s n w
  | 4 => if rd = 0 ∧ imm = 0 then coreZres s n next rs1 w else illegal s n w
  | 5 => if rd = 0 ∧ rvF7 w = 0 then coreZevt s n next rs1 (rvRs2 w) w else illegal s n w
  | 6 => if rd = 0 ∧ imm < 16 then coreZcnt s n next rs1 imm else illegal s n w
  | _ => illegal s n w

/-! Execution. -/

/-- ECALL, EBREAK, MRET, WFI. -/
def systemOp (s : State) (n : Nat) (next : Word) (w word : Nat) : State :=
  if w = 0x00000073 then trapCore s n 11 0
  else if w = 0x00100073 then trapCore s n 3 0
  else if w = 0x30200073 then
    retire s n (getCore s n).mepc 0 (fun c => { c with mie := c.mpie, mpie := true })
  else if w = 0x10500073 then
    let t := retire s n next 0 id
    setCore t n { getCore t n with wfi := !((getCore t n).meie && meip t n) }
  else illegal s n word

/-- Shift amounts and alternatives that OP-IMM and OP allow. -/
def immLegal (w : Nat) : Bool :=
  if rvF3 w = 1 then rvF7 w == 0 else if rvF3 w = 5 then rvF7 w == 0 || rvF7 w == 0x20 else true
def opLegal (w : Nat) : Bool := rvF7 w == 0 || rvF7 w == 1 || (rvF7 w == 0x20 && (rvF3 w == 0 || rvF3 w == 5))

/-- One instruction: its 32-bit form `w`, the bits `word` as they were fetched, and the next address. -/
def coreExec (s : State) (n : Fin 4) (w word : Nat) (next : Word) : State :=
  let k := n.val
  let c := getCore s k
  let a := c.reg (rvRs1 w)
  let b := c.reg (rvRs2 w)
  let rd := rvRd w
  let set := fun (v : Word) => retire s k next 0 (fun c => c.setReg rd v)
  let jump := fun (t : Word) => retire s k t 0 (fun c => c.setReg rd next)
  match rvOp w with
  | 0x37 => set (immU w)
  | 0x17 => set (c.pc + immU w)
  | 0x6F => jump (c.pc + immJ w)
  | 0x67 => if rvF3 w = 0 then jump ((a + immI w) &&& 0xFFFFFFFE) else illegal s k word
  | 0x63 =>
    match branchTaken (rvF3 w) a b with
    | some t => retire s k (if t then c.pc + immB w else next) 0 id
    | none => illegal s k word
  | 0x03 =>
    match loadShape (rvF3 w) with
    | some (m, sgn) => coreLoad s n next rd (a + immI w).toNat m sgn
    | none => illegal s k word
  | 0x23 =>
    match storeBytes (rvF3 w) with
    | some m => coreStore s n next (a + immS w).toNat m b
    | none => illegal s k word
  | 0x13 => if immLegal w then set (aluOp (rvF3 w) (rvF3 w == 5 && bitAt w 30) a (immI w)) else illegal s k word
  | 0x33 =>
    if !opLegal w then illegal s k word
    else if rvF7 w = 1 then set (mulOp (rvF3 w) a b)
    else set (aluOp (rvF3 w) (bitAt w 30) a b)
  | 0x0F => if rvF3 w ≤ 1 then retire s k next 0 id else illegal s k word
  | 0x73 =>
    if rvF3 w = 0 then systemOp s k next w word
    else if rvF3 w = 4 then illegal s k word
    else csrOp s k next w word
  | 0x0B => customOp s k next w
  | _ => illegal s k word

/-- Fetch at the pc: the 32-bit form, the bits fetched, and their length; else the address that faults. -/
def coreFetch (s : State) (n : Nat) : Except Word (Option Nat × Nat × Nat) :=
  let pc := (getCore s n).pc.toNat
  if regionOf pc ≠ .imem then .error (BitVec.ofNat 32 pc) else
  let h := coreMemNat s n false pc 2
  if h % 4 ≠ 3 then .ok (expandC h, h, 2)
  else if regionOf (pc + 2) ≠ .imem then .error (BitVec.ofNat 32 (pc + 2))
  else let w := coreMemNat s n false pc 4; .ok (some w, w, 4)

/-- The address of a load from a core's memories that its check bits refuse; none where the instruction loads none (R292). -/
def badLoad (s : State) (n : Nat) (mem : CoreMemory) (w : Nat) : Option Word :=
  let a := (getCore s n).reg (rvRs1 w) + immI w
  match loadShape (rvF3 w) with
  | some (k, _) =>
    if mem = .badLoad ∧ rvOp w = 3 ∧ a.toNat < 0x20000 ∧ a.toNat % k = 0 then some a else none
  | none => none

/-- One instruction, with what its fetch and its load find in the core's memories. -/
def coreStep (s : State) (n : Fin 4) (mem : CoreMemory) : State :=
  if !coreRuns s n.val then s else
  let pc := (getCore s n.val).pc
  match coreFetch s n.val with
  | .error a => coreTick (trapCore s n.val 1 a) n.val 0
  | .ok (o, word, len) =>
    if mem = .badFetch then coreTick (trapCore s n.val 1 pc) n.val 0 else
    match o with
    | none => coreTick (illegal s n.val word) n.val 0
    | some w =>
      match badLoad s n.val mem w with
      | some a => coreTick (trapCore s n.val 5 a) n.val 0
      | none => coreTick (coreExec s n w word (pc + BitVec.ofNat 32 len)) n.val (csrTouched w)
/-- A corrected word counts as a transient fault of the core's memories, and the instruction runs on (R327). -/
def ccInstruction (s : State) (n : Fin 4) (mem : CoreMemory) : State :=
  if mem = .corrected ∧ coreRuns s n.val then coreStep (transient s 4 n.val).1 n .sound else coreStep s n mem

/-- The machine external interrupt (R292); it ends a wait in WFI or znpop. -/
def ccInterrupt (s : State) (n : Nat) : State :=
  let c := getCore s n
  if c.hold || !c.mie || !c.meie || !meip s n then s else
  setCore s n { c with mepc := c.pc, mcause := 0x8000000B, mtval := 0, mpie := c.mie, mie := false, pc := c.mtvec,
                       ztimeh := none, wfi := false, npop := false }

/-- An engine instruction named by its own command, as one at the pc (log 15). -/
def zCommand (s : State) (n : Nat) (f : Word → State) : State :=
  if !coreRuns s n then s else coreTick (f ((getCore s n).pc + 4)) n 0

def execCcInstruction (core : Fin 4) (mem : CoreMemory) (s : State) : Result := .next (ccInstruction s core mem)
def execCcInterruptTaken (core : Fin 4) (s : State) : Result := .next (ccInterrupt s core.val)
def execZsrd (core : Fin 4) (rd : BitVec 5) (n : BitVec 6) (s : State) : Result :=
  .next (zCommand s core.val (fun t => coreZsrd s core.val t rd.toNat n.toNat))
def execZswr (core : Fin 4) (rs1 : BitVec 5) (n : BitVec 6) (s : State) : Result :=
  .next (zCommand s core.val (fun t => coreZswr s core.val t rs1.toNat n.toNat))
def execZnpop (core : Fin 4) (rd : BitVec 5) (s : State) : Result :=
  .next (zCommand s core.val (fun t => coreZnpop s core.val t rd.toNat))
def execZncnt (core : Fin 4) (rd : BitVec 5) (s : State) : Result :=
  .next (zCommand s core.val (fun t => coreZncnt s core.val t rd.toNat))
def execZres (core : Fin 4) (rs1 : BitVec 5) (s : State) : Result :=
  .next (zCommand s core.val (fun t => coreZres s core.val t rs1.toNat (encI 0x0B 4 0 rs1.toNat 0)))
def execZevt (core : Fin 4) (rs1 rs2 : BitVec 5) (s : State) : Result :=
  .next (zCommand s core.val (fun t => coreZevt s core.val t rs1.toNat rs2.toNat (encR 0x0B 5 0 0 rs1.toNat rs2.toNat)))
def execZcnt (core : Fin 4) (rs1 : BitVec 5) (n : BitVec 4) (s : State) : Result :=
  .next (zCommand s core.val (fun t => coreZcnt s core.val t rs1.toNat n.toNat))

end Sys2Proof.Machine
end

