-- ==== Sys2Proof/Machine/TestWrapper.lean ====
section
/-! DEFINITION. The IEEE 1500 test wrapper (R394, R395). -/

namespace Sys2Proof.Machine

/-- The wrapper shows what the selected register holds, and drives no pin. -/
def wrapSelect (s : State) (wir : BitVec 8) (shown : BitVec 8192) : State :=
  { s with wrap := { s.wrap with wir := wir, shown := shown, drive := none } }
/-- The 1-bit bypass register reads zero (log 16); every reserved code selects it too. -/
def bypass (s : State) (code : BitVec 8) : State := wrapSelect s code 0
/-- An instruction that needs `test_en` acts as WS_BYPASS while it is 0. -/
def underTest (s : State) (f : State → State) : State := if s.pins.testEn then f s else bypass s 0

/-- The level of `wrstn` is taken: at 0 the wrapper goes back to WS_BYPASS and drives no pin (R387, log 16). -/
def sampleWrst (s : State) : State :=
  let l := Config.wrstLevel s.freeCtr
  let t := bumpFree { s with pins := { s.pins with wrstN := l } }
  if l then t else bypass t 0

/-- A scan or boundary register: its contents are not stated. -/
def wrapScan (s : State) (wir : BitVec 8) : State := bumpFree (wrapSelect s wir (Config.scanBits s.freeCtr))
/-- The boundary register drives the output pins with what the tester has shifted in (R394, log 16). -/
def wrapExtest (s : State) : State :=
  let t := wrapScan s 0x01
  bumpFree { t with wrap := { t.wrap with drive := some t.freeCtr } }
/-- The memory-BIST register is captured, then written with what the tester has shifted in (R394, log 16). -/
def wrapMbist (s : State) : State :=
  let t := wrapSelect s 0x10 (s.wrap.mbist.setWidth 8192)
  bumpFree { t with wrap := { t.wrap with mbist := (Config.scanBits t.freeCtr).setWidth 64 } }
def wrapFuseRead (s : State) : State := wrapSelect s 0x11 s.silicon.fuseBits
/-- Fuse programming sets fuse bits and clears none (log 29). -/
def wrapFuseProg (s : State) (bits : BitVec 8192) (vddFuse : Bool) : State :=
  let s := wrapSelect s 0x12 bits
  if vddFuse then { s with silicon := { s.silicon with fuseBits := s.silicon.fuseBits ||| bits } } else s
/-- `GLB_ID`, then the die identifier. -/
def wrapId (s : State) : State := wrapSelect s 0x13 (BitVec.ofNat 8192 (0x5A475045 + s.silicon.dieId.toNat * 2 ^ 32))

/-- What an 8-bit code in the wrapper's instruction register does, with the fuse bits to program and whether `vdd_fuse` is there: a code
that the table does not give acts as WS_BYPASS (R394). While `wrstn` is low the wrapper stands in reset and takes none (R387, log 16). -/
def wrapInstr (s : State) (code : BitVec 8) (bits : BitVec 8192) (vddFuse : Bool) : State :=
  if !s.pins.wrstN then bypass s 0
  else if code = 0x01 then underTest s wrapExtest
  else if code = 0x02 then underTest s (fun t => wrapScan t 0x02)
  else if code = 0x10 then underTest s wrapMbist
  else if code = 0x11 then wrapFuseRead s
  else if code = 0x12 then underTest s (fun t => wrapFuseProg t bits vddFuse)
  else if code = 0x13 then wrapId s
  else bypass s code

def execWsBypass (s : State) : Result := .next (wrapInstr s 0x00 0 false)
def execWsExtest (s : State) : Result := .next (wrapInstr s 0x01 0 false)
def execWsIntest (s : State) : Result := .next (wrapInstr s 0x02 0 false)
def execZwMbist (s : State) : Result := .next (wrapInstr s 0x10 0 false)
def execZwFuseRead (s : State) : Result := .next (wrapInstr s 0x11 0 false)
def execZwFuseProg (bits : BitVec 8192) (vddFuse : Bool) (s : State) : Result := .next (wrapInstr s 0x12 bits vddFuse)
def execZwId (s : State) : Result := .next (wrapInstr s 0x13 0 false)

end Sys2Proof.Machine
end

