-- ==== Sys2Proof/Machine/Dispatch.lean ====
section
/-! DEFINITION. One arm per command: the direct call of its meaning. -/

namespace Sys2Proof.Machine

/-- The effect of a command on everything but the queue. -/
def exec (i : Instr) (s : State) : Host.Outcome State Fault Refusal :=
  match i with
  | .rstNFall => Sys2Proof.Machine.execRstNFall s
  | .rstNRise => Sys2Proof.Machine.execRstNRise s
  | .domainReleaseComplete => Sys2Proof.Machine.execDomainReleaseComplete s
  | .fuseStageComplete f => Sys2Proof.Machine.execFuseStageComplete f s
  | .spareRecordRestoreWrite req off v => Sys2Proof.Machine.execSpareRecordRestoreWrite req off v s
  | .sparesDone req => Sys2Proof.Machine.execSparesDone req s
  | .spareMappingComplete => Sys2Proof.Machine.execSpareMappingComplete s
  | .bistComplete found => Sys2Proof.Machine.execBistComplete found s
  | .sensorCalibrationComplete ok sense => Sys2Proof.Machine.execSensorCalibrationComplete ok sense s
  | .lifeRecordRestoreWrite req off v => Sys2Proof.Machine.execLifeRecordRestoreWrite req off v s
  | .lifeDone req => Sys2Proof.Machine.execLifeDone req s
  | .negotiationStart up ver => Sys2Proof.Machine.execNegotiationStart up ver s
  | .negotiationIntervalEnd up lanes => Sys2Proof.Machine.execNegotiationIntervalEnd up lanes s
  | .negotiationTimeout => Sys2Proof.Machine.execNegotiationTimeout s
  | .registerWrite req addr be v => Sys2Proof.Machine.execRegisterWrite req addr be v s
  | .coherentLowRead req addr => Sys2Proof.Machine.execCoherentLowRead req addr s
  | .runSet req => Sys2Proof.Machine.execRunSet req s
  | .pscResolve req cond outcome => Sys2Proof.Machine.execPscResolve req cond outcome s
  | .versionAcquire req binding first last => Sys2Proof.Machine.execVersionAcquire req binding first last s
  | .versionRelease req binding first last => Sys2Proof.Machine.execVersionRelease req binding first last s
  | .pscPreempt req q => Sys2Proof.Machine.execPscPreempt req q s
  | .imgLoad req => Sys2Proof.Machine.execImgLoad req s
  | .imageValidate fetchOk => Sys2Proof.Machine.execImageValidate fetchOk s
  | .imgSwap req => Sys2Proof.Machine.execImgSwap req s
  | .aplApply req mask out => Sys2Proof.Machine.execAplApply req mask out s
  | .applyInPulse => Sys2Proof.Machine.execApplyInPulse s
  | .aplLockSet req => Sys2Proof.Machine.execAplLockSet req s
  | .lifeSave req => Sys2Proof.Machine.execLifeSave req s
  | .rasOutcome req commit lockMatch => Sys2Proof.Machine.execRasOutcome req commit lockMatch s
  | .rasRetryUpdate req => Sys2Proof.Machine.execRasRetryUpdate req s
  | .rasRetryGather req => Sys2Proof.Machine.execRasRetryGather req s
  | .rasSpareSnap req => Sys2Proof.Machine.execRasSpareSnap req s
  | .evtLatch req => Sys2Proof.Machine.execEvtLatch req s
  | .evtTailWrite req v => Sys2Proof.Machine.execEvtTailWrite req v s
  | .mbxOpen req n => Sys2Proof.Machine.execMbxOpen req n s
  | .mbxPost req n => Sys2Proof.Machine.execMbxPost req n s
  | .mbxSnap req n => Sys2Proof.Machine.execMbxSnap req n s
  | .intAck req t source => Sys2Proof.Machine.execIntAck req t source s
  | .intEoi req t source => Sys2Proof.Machine.execIntEoi req t source s
  | .intSwset req ix bits => Sys2Proof.Machine.execIntSwset req ix bits s
  | .intSwclr req ix bits => Sys2Proof.Machine.execIntSwclr req ix bits s
  | .ccHoldSet req core => Sys2Proof.Machine.execCcHoldSet req core s
  | .ccHoldClear req core => Sys2Proof.Machine.execCcHoldClear req core s
  | .ccWindowWrite req core off v => Sys2Proof.Machine.execCcWindowWrite req core off v s
  | .govStateWrite req w v => Sys2Proof.Machine.execGovStateWrite req w v s
  | .ccInstruction core mem => Sys2Proof.Machine.execCcInstruction core mem s
  | .ccInterruptTaken core => Sys2Proof.Machine.execCcInterruptTaken core s
  | .zsrd core rd n => Sys2Proof.Machine.execZsrd core rd n s
  | .zswr core rs1 n => Sys2Proof.Machine.execZswr core rs1 n s
  | .znpop core rd => Sys2Proof.Machine.execZnpop core rd s
  | .zncnt core rd => Sys2Proof.Machine.execZncnt core rd s
  | .zres core rs1 => Sys2Proof.Machine.execZres core rs1 s
  | .zevt core rs1 rs2 => Sys2Proof.Machine.execZevt core rs1 rs2 s
  | .zcnt core rs1 n => Sys2Proof.Machine.execZcnt core rs1 n s
  | .wsBypass => Sys2Proof.Machine.execWsBypass s
  | .wsExtest => Sys2Proof.Machine.execWsExtest s
  | .wsIntest => Sys2Proof.Machine.execWsIntest s
  | .zwMbist => Sys2Proof.Machine.execZwMbist s
  | .zwFuseRead => Sys2Proof.Machine.execZwFuseRead s
  | .zwFuseProg bits vddFuse => Sys2Proof.Machine.execZwFuseProg bits vddFuse s
  | .zwId => Sys2Proof.Machine.execZwId s
  | .testEnChange => Sys2Proof.Machine.execTestEnChange s
  | .passageSelect => Sys2Proof.Machine.execPassageSelect s
  | .variantSwap => Sys2Proof.Machine.execVariantSwap s
  | .bundleIssue => Sys2Proof.Machine.execBundleIssue s
  | .passageComplete p => Sys2Proof.Machine.execPassageComplete p s
  | .passageUndoComplete p => Sys2Proof.Machine.execPassageUndoComplete p s
  | .passageSuspend => Sys2Proof.Machine.execPassageSuspend s
  | .passageResume => Sys2Proof.Machine.execPassageResume s
  | .nop slot => Sys2Proof.Machine.execNop slot s
  | .load a => Sys2Proof.Machine.execLoad a s
  | .burst a corrupt => Sys2Proof.Machine.execBurst a corrupt s
  | .openGroup slab => Sys2Proof.Machine.execOpenGroup slab s
  | .close slab => Sys2Proof.Machine.execClose slab s
  | .anchor slab => Sys2Proof.Machine.execAnchor slab s
  | .drain slab => Sys2Proof.Machine.execDrain slab s
  | .spill slab => Sys2Proof.Machine.execSpill slab s
  | .reload slab => Sys2Proof.Machine.execReload slab s
  | .combine slab => Sys2Proof.Machine.execCombine slab s
  | .veMap slab => Sys2Proof.Machine.execVeMap slab s
  | .veReduce slab => Sys2Proof.Machine.execVeReduce slab s
  | .veSelect slab => Sys2Proof.Machine.execVeSelect slab s
  | .veWideAdd slab => Sys2Proof.Machine.execVeWideAdd slab s
  | .veWideConvert slab => Sys2Proof.Machine.execVeWideConvert slab s
  | .veUpdate slab badTile => Sys2Proof.Machine.execVeUpdate slab badTile s
  | .moveHostToStaging slab => Sys2Proof.Machine.execMoveHostToStaging slab s
  | .moveStagingToHost slab => Sys2Proof.Machine.execMoveStagingToHost slab s
  | .moveHostToHost slab => Sys2Proof.Machine.execMoveHostToHost slab s
  | .send slab => Sys2Proof.Machine.execSend slab s
  | .frameSparse ch => Sys2Proof.Machine.execFrameSparse ch s
  | .frameDenseLeaf ch => Sys2Proof.Machine.execFrameDenseLeaf ch s
  | .frameGather ch => Sys2Proof.Machine.execFrameGather ch s
  | .stats ch => Sys2Proof.Machine.execStats ch s
  | .gap => Sys2Proof.Machine.execGap s
  | .notify => Sys2Proof.Machine.execNotify s
  | .stationaryLoadComplete a => Sys2Proof.Machine.execStationaryLoadComplete a s
  | .feederFill a m => Sys2Proof.Machine.execFeederFill a m s
  | .residueCheck c err => Sys2Proof.Machine.execResidueCheck c err s
  | .rowReplay a => Sys2Proof.Machine.execRowReplay a s
  | .chunkPromote c => Sys2Proof.Machine.execChunkPromote c s
  | .drainTileCheck op tile => Sys2Proof.Machine.execDrainTileCheck op tile s
  | .combineComplete op => Sys2Proof.Machine.execCombineComplete op s
  | .runFinish op => Sys2Proof.Machine.execRunFinish op s
  | .moveComplete op => Sys2Proof.Machine.execMoveComplete op s
  | .stagingAllocate slab part => Sys2Proof.Machine.execStagingAllocate slab part s
  | .ropeTileArrive hop => Sys2Proof.Machine.execRopeTileArrive hop s
  | .ropeHoldTimeout hop => Sys2Proof.Machine.execRopeHoldTimeout hop s
  | .bmpRequest ch => Sys2Proof.Machine.execBmpRequest ch s
  | .bmpReqCredit ch => Sys2Proof.Machine.execBmpReqCredit ch s
  | .bmpWdataCredit ch => Sys2Proof.Machine.execBmpWdataCredit ch s
  | .bmpResponse ch tag code data => Sys2Proof.Machine.execBmpResponse ch tag code data s
  | .bmpTimeout ch tag => Sys2Proof.Machine.execBmpTimeout ch tag s
  | .bmpChannelDown ch => Sys2Proof.Machine.execBmpChannelDown ch s
  | .sendAbortNotice => Sys2Proof.Machine.execSendAbortNotice s
  | .frameTransmit ch => Sys2Proof.Machine.execFrameTransmit ch s
  | .rlpTxCredit ch => Sys2Proof.Machine.execRlpTxCredit ch s
  | .receiveSparseList ch err bytes => Sys2Proof.Machine.execReceiveSparseList ch err bytes s
  | .receiveDensePartial ch err bytes => Sys2Proof.Machine.execReceiveDensePartial ch err bytes s
  | .receiveGatherTile ch err bytes => Sys2Proof.Machine.execReceiveGatherTile ch err bytes s
  | .receiveStatistics ch err bytes => Sys2Proof.Machine.execReceiveStatistics ch err bytes s
  | .receiveAbortNotice ch err bytes => Sys2Proof.Machine.execReceiveAbortNotice ch err bytes s
  | .receiveOutcome ch err bytes => Sys2Proof.Machine.execReceiveOutcome ch err bytes s
  | .ownerWindowAllocate slab => Sys2Proof.Machine.execOwnerWindowAllocate slab s
  | .ownerAdd group member => Sys2Proof.Machine.execOwnerAdd group member s
  | .ownerConvert group u => Sys2Proof.Machine.execOwnerConvert group u s
  | .denseNodeAdd group u level => Sys2Proof.Machine.execDenseNodeAdd group u level s
  | .statsFragmentSend ix => Sys2Proof.Machine.execStatsFragmentSend ix s
  | .deadlineExpire => Sys2Proof.Machine.execDeadlineExpire s
  | .outcomeTimeout => Sys2Proof.Machine.execOutcomeTimeout s
  | .peerFail rank => Sys2Proof.Machine.execPeerFail rank s
  | .laneDown lane => Sys2Proof.Machine.execLaneDown lane s
  | .leakyDecay cls index => Sys2Proof.Machine.execLeakyDecay cls index s
  | .localisationTest array found => Sys2Proof.Machine.execLocalisationTest array found s
  | .retirementApply array => Sys2Proof.Machine.execRetirementApply array s
  | .scrubQuantum unit bank found => Sys2Proof.Machine.execScrubQuantum unit bank found s
  | .sensorCalibrationQuantum sense => Sys2Proof.Machine.execSensorCalibrationQuantum sense s
  | .spareColumnSelfTest el ok => Sys2Proof.Machine.execSpareColumnSelfTest el ok s
  | .telemetrySnapshot sense => Sys2Proof.Machine.execTelemetrySnapshot sense s
  | .lifetimeFlush => Sys2Proof.Machine.execLifetimeFlush s
  | .forcedBackgroundSlot job unit => Sys2Proof.Machine.execForcedBackgroundSlot job unit s
  | .pwrCapStrobe cap => Sys2Proof.Machine.execPwrCapStrobe cap s
  | .powerWindow est => Sys2Proof.Machine.execPowerWindow est s
  | .droopFall => Sys2Proof.Machine.execDroopFall s
  | .droopRise => Sys2Proof.Machine.execDroopRise s
  | .rampStep => Sys2Proof.Machine.execRampStep s
  | .pwrRampAck => Sys2Proof.Machine.execPwrRampAck s
  | .rampTimeout => Sys2Proof.Machine.execRampTimeout s
  | .histogramSecond temp16 mv => Sys2Proof.Machine.execHistogramSecond temp16 mv s
  | .eventLogWrite source => Sys2Proof.Machine.execEventLogWrite source s
  | .tsEpoch => Sys2Proof.Machine.execTsEpoch s
  | .intDelivery => Sys2Proof.Machine.execIntDelivery s
  | .moderationExpire t => Sys2Proof.Machine.execModerationExpire t s
  | .rlpLaneUp lanes ver => Sys2Proof.Machine.execRlpLaneUp lanes ver s
  | .applyOutPulseEnd => Sys2Proof.Machine.execApplyOutPulseEnd s
  | .drainComplete op => Sys2Proof.Machine.execDrainComplete op s
  | .spillComplete op => Sys2Proof.Machine.execSpillComplete op s
  | .reloadComplete op => Sys2Proof.Machine.execReloadComplete op s

end Sys2Proof.Machine
end

