-- ==== Sys2Proof/Machine/Idle.lean ====
section
/-! DEFINITION. What a step does when no command waits: time passes (R6, R209 to R211, R305, R347, log 7). -/

namespace Sys2Proof.Machine

/-- Why the ACLK is a stall while a passage issues; none where a bundle could issue (R209, R210). A sump slot of an issued bundle that
waits has its own cause (R94, R95). -/
def issueStall (s : State) (p : Nat) : Option Nat :=
  let x := getPassage s p
  let e := pentry s p
  if powerHolds s then some 14
  else if (headStall s).isSome then headStall s
  else if s.img.swapTo.isSome then some 1
  else if x.status == .undoing then some 13
  else if x.stuck || x.status != .running then some 0
  else if !mayIssue s p then some (openCause s)
  else if s.clock.aclk < x.loadTill then some 2
  else if s.clock.aclk < x.rowTill then some 3
  else if s.clock.aclk < x.gap then some (openCause s)
  else if bundleWaits s x then some 9
  else
    let b := bundleAt s x.ptr
    if !bundleOk s b e (x.ptr - e.bundles) then some 0 else
    match (bundleHold s (bundleSlots b p (s.psc.nextOp + 1))).2 with
    | some c => some c
    | none => if b.barrier then barrierHold s p else none
/-- The cause of an ACLK without issue (R210). -/
def stallCause (s : State) : Option Nat :=
  if !s.psc.run then none
  else match s.psc.issuing with
  | some p => issueStall s p
  | none =>
    some (if powerHolds s then 14
      else if (headStall s).isSome then (headStall s).getD 0
      else if s.img.swapTo.isSome then 1
      else if s.psc.passages.any (fun kv => kv.2.status == .undoing) then 13
      else if acquireParked s then 12
      else 0)

/-- Nanoseconds pass: the timestamp stops short of its wrap, which is a command of its own; powered time counts. -/
def passTime (s : State) (ns : Nat) : State :=
  countLife { s with clock := { s.clock with ts := BitVec.ofNat 48 (min (2 ^ 48 - 1) (s.clock.ts.toNat + ns)) } } 0 ns

/-- One ACLK with no command, once the domains are out of reset; the window of a lifted mask is over (log 7, 20). `wrstn` may change in every
stage. -/
def idleTick (s : State) : State :=
  let s := sampleWrst s
  if s.boot.stage = 0 then s else
  let t := match stallCause s with
    | some c =>
      let u := if isBubble s then countLife s 17 1 else s
      countStall u c 1
    | none => s
  let t := dueAbort (advance (passTime t (Config.tclkElapsed t.freeCtr)))
  bumpFree { t with intc := { t.intc with grace := [] } }

end Sys2Proof.Machine
end

