-- ==== Sys2Proof/Machine/PinLevels.lean ====
section
/-! DEFINITION. Levels of output pins that follow from the state (R303, R387, R388, R394). -/

namespace Sys2Proof.Machine

/-- Who asks, of a command that is an access to a register. -/
def requester : Instr → Option Req
  | .spareRecordRestoreWrite req _ _ => some req
  | .sparesDone req => some req
  | .lifeRecordRestoreWrite req _ _ => some req
  | .lifeDone req => some req
  | .registerWrite req _ _ _ => some req
  | .coherentLowRead req _ => some req
  | .runSet req => some req
  | .pscResolve req _ _ => some req
  | .versionAcquire req _ _ _ => some req
  | .versionRelease req _ _ _ => some req
  | .pscPreempt req _ => some req
  | .imgLoad req => some req
  | .imgSwap req => some req
  | .aplApply req _ _ => some req
  | .aplLockSet req => some req
  | .lifeSave req => some req
  | .rasOutcome req _ _ => some req
  | .rasRetryUpdate req => some req
  | .rasRetryGather req => some req
  | .rasSpareSnap req => some req
  | .evtLatch req => some req
  | .evtTailWrite req _ => some req
  | .mbxOpen req _ => some req
  | .mbxPost req _ => some req
  | .mbxSnap req _ => some req
  | .intAck req _ _ => some req
  | .intEoi req _ _ => some req
  | .intSwset req _ _ => some req
  | .intSwclr req _ _ => some req
  | .ccHoldSet req _ => some req
  | .ccHoldClear req _ => some req
  | .ccWindowWrite req _ _ _ => some req
  | .govStateWrite req _ _ => some req
  | _ => none

/-- Control-port requests that have been taken and not answered. -/
def portOutstanding (s : State) : Nat := s.pending.countP (fun c => requester c == some 0)
/-- `ctl_req_ready`: at 0 while four requests are outstanding (R388). -/
def ctlReady (s : State) : Bool := decide (portOutstanding s < 4)
/-- `ctl_rsp_rdata` of the last answer: zero for a write (R387). -/
def ctlAnswer (s : State) : Word := (getReq s 0).answer

/-- `irq_h`: a host line is high while a delivery to it is presented (R303). -/
def irqH (s : State) : BitVec 4 :=
  BitVec.ofNat 4 (sumNat ((List.range 4).map (fun i => if (List.lookup (4 + i) s.intc.held).isSome then 2 ^ i else 0)))

/-- The functional output pins of R387: the control port's and the interrupt lines, APPLY, the power port's (R355), a memory channel's (R268)
and a collective channel's (R264). -/
inductive OutPin where
  | ctlReqReady | ctlRspValid | ctlRspRdata | irqH | applyOut | pwrEst | pwrRampReq
  | bmpReqValid (ch : Nat) | bmpReqWrite (ch : Nat) | bmpReqAddr (ch : Nat) | bmpReqLen (ch : Nat) | bmpReqTag (ch : Nat)
  | bmpWdataValid (ch : Nat) | bmpWdata (ch : Nat) | bmpWmask (ch : Nat) | bmpWdataLast (ch : Nat)
  | rlpTxValid (ch : Nat) | rlpTxData (ch : Nat) | rlpTxSop (ch : Nat) | rlpTxEop (ch : Nat) | rlpTxBytes (ch : Nat) | rlpTxDest (ch : Nat)
  | rlpRxCredit (ch : Nat) | rlpRespValid (ch : Nat) | rlpRespNack (ch : Nat)
  deriving DecidableEq, Repr

/-- Width of a pin, and the number that its first bit has here; each bit has a cell of its own in the boundary register, in an order that is
not stated (R394, log 16). -/
def OutPin.cells : OutPin → Nat × Nat
  | .ctlReqReady => (1, 0) | .ctlRspValid => (1, 1) | .ctlRspRdata => (32, 2) | .irqH => (4, 34) | .applyOut => (1, 38)
  | .pwrEst => (12, 39) | .pwrRampReq => (1, 51)
  | .bmpReqValid c => (1, 2048 * (c + 1)) | .bmpReqWrite c => (1, 2048 * (c + 1) + 1) | .bmpReqAddr c => (52, 2048 * (c + 1) + 2)
  | .bmpReqLen c => (6, 2048 * (c + 1) + 54) | .bmpReqTag c => (10, 2048 * (c + 1) + 60) | .bmpWdataValid c => (1, 2048 * (c + 1) + 70)
  | .bmpWdata c => (1024, 2048 * (c + 1) + 71) | .bmpWmask c => (128, 2048 * (c + 1) + 1095)
  | .bmpWdataLast c => (1, 2048 * (c + 1) + 1223)
  | .rlpTxValid c => (1, 8192 * (c + 20)) | .rlpTxData c => (4096, 8192 * (c + 20) + 1) | .rlpTxSop c => (1, 8192 * (c + 20) + 4097)
  | .rlpTxEop c => (1, 8192 * (c + 20) + 4098) | .rlpTxBytes c => (9, 8192 * (c + 20) + 4099)
  | .rlpTxDest c => (16, 8192 * (c + 20) + 4108) | .rlpRxCredit c => (1, 8192 * (c + 20) + 4124)
  | .rlpRespValid c => (1, 8192 * (c + 20) + 4125) | .rlpRespNack c => (1, 8192 * (c + 20) + 4126)

/-- The level of a pin as the boundary register with the named contents drives it. -/
def OutPin.driven (p : OutPin) (n : Nat) : Nat :=
  sumNat ((List.range p.cells.1).map (fun i => if Config.boundaryCell n (p.cells.2 + i) then 2 ^ i else 0))
/-- The level of a pin as the functional logic drives it, where one holds between commands: what a channel presents stands for the clock
of a transfer alone, and its address, length, tag and destination are those of the last. -/
def OutPin.functional (s : State) (p : OutPin) : Option Nat :=
  let last := fun (ch : Nat) (f : BmpReq → Nat) => ((s.bmp.reqs.filter (fun r => r.ch == ch)).getLast?).map f
  match p with
  | .ctlReqReady => some (if ctlReady s then 1 else 0)
  | .ctlRspRdata => some (ctlAnswer s).toNat
  | .irqH => some (Sys2Proof.Machine.irqH s).toNat
  | .applyOut => some (if s.pins.applyOut then 1 else 0)
  | .pwrEst => some (estWatts s.pwr.est)
  | .pwrRampReq => some (if s.pins.rampReq then 1 else 0)
  | .bmpReqWrite c => last c (fun r => if r.write then 1 else 0)
  | .bmpReqAddr c => last c (fun r => r.addr)
  | .bmpReqLen c => last c (fun r => r.beats - 1)
  | .bmpReqTag c => last c (fun r => r.tag)
  | .rlpTxDest c => some (getRlp s c).dest
  | .rlpRespNack c => (getRlp s c).resp.map (fun x => if x then 1 else 0)
  | _ => none
/-- The level of an output pin: the boundary register's under WS_EXTEST, else the functional logic's (R394). -/
def OutPin.level (s : State) (p : OutPin) : Option Nat :=
  match s.wrap.drive with
  | some n => some (p.driven n)
  | none => p.functional s

end Sys2Proof.Machine
end

