-- ==== Sys2Proof/Safety.lean ====
section
/-! DEFINITION. What every step keeps: byte memories in canonical form, a stage that exists, steps of training only in
stage 0xA, bounded event queues and a bounded event log. -/

namespace Sys2Proof.Safety

/-- Host memory and staging are in canonical form. -/
def MemOk (s : Machine.State) : Prop := Mem.wf s.hostMem ∧ Mem.wf s.staging.bytes

/-- The parts of the state that `Sound` speaks of, and what it asks of them: canonical memories; a stage of R314, 0x0 while `rst_n`
is low (R313); the scheduler running, a step in progress or an outcome awaited only in stage 0xA (R199, R323); at most 8 records waiting at
each source (R309); at most 8,192 records in the log (R309). -/
def Good (mem stg : Mem) (rstN : Bool) (stage : BitVec 4) (run on lost : Bool) (queues : Tab (List Machine.EvRec)) (head tail : Word) :
    Prop :=
  Mem.wf mem ∧ Mem.wf stg ∧ (stage.toNat ≤ 10 ∨ stage = 15) ∧ (rstN = false → stage = 0) ∧ ((run || on || lost) = true → stage = 10) ∧
    (∀ k, (Tab.get [] queues k).length ≤ 8) ∧ (head - tail).toNat ≤ 8192

/-- The invariant of the block. -/
def Sound (s : Machine.State) : Prop :=
  Good s.hostMem s.staging.bytes s.pins.rstN s.boot.stage s.psc.run s.psc.stepOn s.ras.lostWait s.evt.queues s.evt.head s.evt.tail

/-- The command completes: it answers a next state, of which `p` holds. -/
def Runs (i : Instr) (s : Machine.State) (p : Machine.State → Prop) : Prop := ∃ t, Machine.exec i s = .next t ∧ p t

/-- The number of the next record of a source, which also counts the records it has raised (R305). -/
def seqOf (s : Machine.State) (source : Nat) : Word := Tab.get 0 s.evt.seq source
/-- The records of a source that wait for the log, oldest first (R309). -/
def waitingRecords (s : Machine.State) (source : Nat) : List Machine.EvRec := Tab.get [] s.evt.queues source

end Sys2Proof.Safety
end

