-- ==== Sys2Proof/Certificates/Slice0/Obligations.lean ====
section
/-! DEFINITION. The statements for the provers. -/

section
open Sys2Proof Sys2Proof.Machine Sys2Proof.Safety

/-- The queue is first in, first out: a step runs the command at its front on the queue's rest. On an empty queue the level of `wrstn` is
taken, and at 0 the wrapper drives nothing; no more happens in stage 0, else one ACLK passes and the timestamp does not fall, and no more
than that happens to memory, cores and mailboxes unless an abort is due (what a step does on an empty queue is the model's choice, logs 7,
16, 88). -/
def Obligations.StepRunsFront : Prop :=
  (∀ (c : Instr) (rest : List Instr) (s : State), step { s with pending := c :: rest } = exec c { s with pending := rest }) ∧
  ∀ s : State, s.pending = [] →
    (∃ t, step s = .next t ∧ (t.pins.wrstN = false → t.wrap = { s.wrap with wir := 0, shown := 0, drive := none }) ∧
      (t.pins.wrstN = true → t.wrap = s.wrap) ∧ (s.boot.stage = 0 →
        t = { s with pins := { s.pins with wrstN := t.pins.wrstN }, wrap := t.wrap, freeCtr := t.freeCtr })) ∧
    (s.boot.stage ≠ 0 → ∃ t, step s = .next t ∧ t.pending = [] ∧ t.clock.aclk = s.clock.aclk + 1 ∧ s.clock.ts ≤ t.clock.ts ∧
      t.clock.epoch = s.clock.epoch ∧ t.boot = s.boot ∧ t.pins = { s.pins with wrstN := t.pins.wrstN } ∧ t.regs = s.regs ∧
      (s.psc.abortDue = false → t.hostMem = s.hostMem ∧ t.cores = s.cores ∧ t.mbx = s.mbx))

/-- R131: the commit adds every pending count into its tag's tokens and sets it to zero; an abort sets every pending count to zero and
restores every binding to its value at the step's start, so that tokens and bindings stand as before the attempt. -/
def Obligations.TokensAtCommitAndAbort : Prop :=
  (∀ (s : State) (frags : Option (List Fragment)) (lockMatch : Bool),
    (∃ q, q < min 4096 (ptCount s) ∧ (pentry s q).valid = true ∧ passageDone s q = false) → ∀ x tag,
    let old := getTag (getVer s x) tag
    let new := getTag (getVer (commitStep s frags lockMatch) x) tag
    0 ≤ (old.tokens : Int) + old.pending → (new.tokens : Int) = old.tokens + old.pending ∧ new.pending = 0) ∧
  (∀ (s : State) (x tag : Nat), let old := getTag (getVer s x) tag
    let new := getTag (getVer (commitVersions s) x) tag
    0 ≤ (old.tokens : Int) + old.pending → (new.tokens : Int) = old.tokens + old.pending ∧ new.pending = 0) ∧
  (∀ (s : State) (x : Nat), (getVer (abortStep s) x).bound = (getVer s x).atStart ∧
    ∀ tag, (getTag (getVer (abortStep s) x) tag).pending = 0 ∧
      (getTag (getVer (abortStep s) x) tag).tokens = (getTag (getVer s x) tag).tokens) ∧
  (∀ (s : State) (req : Req), s.boot.stage = 0xA → s.psc.abortDue = false → s.psc.run = false → s.psc.repeats = false → s.ras.audit = false →
    s.psc.limited = false → s.ras.lostWait = false → Runs (.runSet req) s (fun t => ∀ x, (getVer t x).atStart = (getVer t x).bound))

/-- The state right after reset (R311, R313, R314, R127, R293, R309; the lane count, the pins and the lack of host bytes are the
model's choices, log 2, 4, 5). -/
def Obligations.ResetState : Prop :=
  State.reset.boot.stage = 0 ∧ State.reset.boot.fail = 0 ∧ State.reset.pins.rstN = false ∧ State.reset.pending = [] ∧
    State.reset.hostMem = [] ∧ (∀ a, liveReg State.reset a = regReset a ∧ shadowReg State.reset a = regReset a) ∧
    (∀ n, getMbx State.reset n = { value := 0, seq := 0, ready := false }) ∧ (∀ n, (getCore State.reset n).hold = true) ∧
    (∀ t, (getVer State.reset t).cur = 0 ∧ (getVer State.reset t).bound = [] ∧ (getTag (getVer State.reset t) 0).live = true ∧
      (getTag (getVer State.reset t) 0).buffer = 0 ∧ (getTag (getVer State.reset t) 0).tokens = 0) ∧
    State.reset.evt.head = 0 ∧ State.reset.evt.tail = 0 ∧ State.reset.evt.overflow = 0 ∧ (∀ k, seqOf State.reset k = 0) ∧
    State.reset.img.live = none ∧ State.reset.img.shadow = none ∧ State.reset.psc.run = false ∧
    State.reset.psc.stepOn = false ∧ State.reset.psc.step = 0 ∧ State.reset.psc.attempt = 0 ∧ State.reset.clock.ts = 0

/-- The invariant holds right after reset. -/
def Obligations.ResetIsSound : Prop := Sound State.reset

/-- Every step, of any command or of idling, keeps the invariant: canonical host memory and staging, a stage that exists and is 0x0 in
reset, training only in stage 0xA, at most 8 waiting records per source, at most 8,192 in the log. -/
def Obligations.EveryStepKeepsSound : Prop := ∀ s t : State, Sound s → step s = .next t → Sound t

/-- A fall of `rst_n` returns every record, counter, plane, key and register to its reset value, from any state; what the surroundings
hold (host memory, pins, queue) and the silicon stay. A change of `test_en` while `rst_n` is high enters stage 0x0 in the same way,
and a rise without a fall leaves it there; while `rst_n` is low only the pin changes, and with its fall a selected test instruction ends
(R313, R395). That the wrapper then holds WS_BYPASS, shows 0 and drives nothing, as after a fall of `rst_n`, is log 16; that the die
identifier and the fuse map, which are read again, stand at 0 and empty from the fall on is log 5: the model's choices. -/
def Obligations.ResetAndTestEnable : Prop :=
  (∀ s : State, Runs .rstNFall s (fun t =>
    t.boot = { State.reset.boot with coreEpoch := s.boot.coreEpoch + 1 } ∧ t.clock = State.reset.clock ∧
    t.regs = State.reset.regs ∧ t.reqs = [] ∧ t.evt = State.reset.evt ∧ t.intc = State.reset.intc ∧ t.mbx = [] ∧ t.cores = [] ∧
    t.img = State.reset.img ∧ t.psc = State.reset.psc ∧ t.vers = [] ∧ t.gov = State.reset.gov ∧ t.sump = State.reset.sump ∧
    t.ves = [] ∧ t.staging = { State.reset.staging with epoch := s.staging.epoch + 1 } ∧ t.bmp = State.reset.bmp ∧
    t.rope = State.reset.rope ∧ t.rlp = State.reset.rlp ∧ t.ras = State.reset.ras ∧ t.life = State.reset.life ∧
    t.pwr = State.reset.pwr ∧ t.wrap = State.reset.wrap ∧
    t.pins = { s.pins with rstN := false, applyOut := false, rampReq := false } ∧ t.hostMem = s.hostMem ∧ t.pending = s.pending ∧
    t.freeCtr = s.freeCtr ∧ t.silicon = { s.silicon with dieId := 0, fuseMap := [] })) ∧
  (∀ s : State,
    (s.pins.rstN = false →
      (s.pins.testEn = false ∨ s.wrap.wir ∉ ([0x01, 0x02, 0x10, 0x12] : List (BitVec 8)) →
        exec .testEnChange s = .next { s with pins := { s.pins with testEn := !s.pins.testEn } }) ∧
      (s.pins.testEn = true → s.wrap.wir ∈ ([0x01, 0x02, 0x10, 0x12] : List (BitVec 8)) →
        exec .testEnChange s = .next { s with
          pins := { s.pins with testEn := false }, wrap := { s.wrap with wir := 0, shown := 0, drive := none } })) ∧
    (s.pins.rstN = true → Runs .testEnChange s (fun t => t.boot.stage = 0 ∧ t.boot.testHold = true ∧
      t.pins.testEn = !s.pins.testEn ∧ t.regs = State.reset.regs ∧ t.psc = State.reset.psc ∧ t.cores = [] ∧ t.img = State.reset.img ∧
      t.hostMem = s.hostMem ∧ exec .rstNRise t = .next t ∧
      Runs .rstNFall t (fun u => Runs .rstNRise u (fun v => v.boot.stage = 1 ∧ v.boot.testHold = false)))))

/-- The stages that pass: reset release, domains, fuses, spare mapping, self-test, sensors (R314 to R318). Self-test leaves staging zero
and core memories undefined (R315), and retires the elements and arrays it finds faulty where spares are left (R318). The stages that
fail: stage 0xF, the failure code, `boot_failed` with code and stage in its payload (R324), and no later stage runs. The low 12 bits of
that payload, memory and slab of code 3, are the model's choice (log 22), as are the fuse contents in the command (log 5) and issue
paused from the rise on with `droop_n` low (log 27). That a pattern of fuse bits is read as the same contents each time is the model's
account of a layout that is not given (log 5). -/
def Obligations.StartupStages : Prop :=
  (∀ s : State, s.pins.rstN = false → exec .rstNRise s =
    .next { s with pins := { s.pins with rstN := true }, boot := { s.boot with stage := 1 },
                   pwr := { s.pwr with paused := !s.pins.droopN } }) ∧
  (∀ s : State, s.boot.stage = 1 → exec .domainReleaseComplete s = .next { s with boot := { s.boot with stage := 2 } }) ∧
  (∀ (s : State) (f : FuseRead), fuseAgrees s f = true ↔
    f.bits = s.silicon.fuseBits ∧ ∀ g, g ∈ s.silicon.fuseSeen → g.bits = f.bits → g = f) ∧
  (∀ (s : State) (f : FuseRead), s.boot.stage = 2 → fuseAgrees s f = true → f.crcOk = true →
    fuseSparesOk { s with silicon := { s.silicon with dieId := f.dieId, fuseMap := f.retired } } = true →
    Runs (.fuseStageComplete f) s (fun t => t.boot = { s.boot with stage := 3 } ∧
      t.silicon = { s.silicon with
        dieId := f.dieId, fuseMap := f.retired, fuseSeen := (f :: s.silicon.fuseSeen).eraseDups } ∧ f ∈ t.silicon.fuseSeen ∧
      (∀ n w, n < 4 → f.trims[n]? = some w → liveReg t (0x000030 + 4 * n) = w) ∧
      (∀ a, (∀ n, n < 4 → a ≠ 0x000030 + 4 * n) → liveReg t a = liveReg s a) ∧
      t.evt = { s.evt with ring := [], head := 0, tail := 0 } ∧ t.mbx = [] ∧ t.intc.pend = 0 ∧ t.intc.act = 0 ∧ t.intc.sw = 0 ∧
      t = { s with boot := t.boot, silicon := t.silicon, regs := t.regs, evt := t.evt, mbx := t.mbx, intc := t.intc })) ∧
  (∀ s : State, s.boot.stage = 4 → exec .spareMappingComplete s = .next { s with boot := { s.boot with stage := 5 } }) ∧
  (∀ (s : State) (k : Nat), s.boot.stage = 5 → Runs (.bistComplete []) s (fun t => stByte t k = 0)) ∧
  (∀ s : State, s.boot.stage = 5 → exec (.bistComplete []) s = .next { s with
    boot := { s.boot with stage := 6, coreEpoch := s.boot.coreEpoch + 1 },
    cores := s.cores.map (fun kv => (kv.1, { kv.2 with imem := [], dmem := [] })), staging := { s.staging with bytes := [], zeroed := some s.staging.epoch },
    sump := { s.sump with totals := [], groups := [] } }) ∧
  (∀ (s : State) (v : List (BitVec 16)), s.boot.stage = 6 → Runs (.sensorCalibrationComplete true v) s (fun t =>
    t.boot = { s.boot with stage := 7 } ∧ (∀ i, i < 12 → Tab.get 0 t.life.sense i = v.getD i 0) ∧
    t = { s with boot := t.boot, life := { s.life with sense := t.life.sense } })) ∧
  (∀ (s : State) (e : Element), s.boot.stage = 5 →
    (sparesLeft s e.array e.isCol ≠ 0 → Runs (.bistComplete [.element e]) s (fun t =>
      t.boot.stage = 6 ∧ t.ras.retired = s.ras.retired ++ [e] ∧ seqOf t 6 = seqOf s 6 + 1)) ∧
    (sparesLeft s e.array e.isCol = 0 → isReplaced s e.array = false → spareFree s e.array = true →
      Runs (.bistComplete [.element e]) s (fun t => t.boot.stage = 6 ∧ t.ras.retired = s.ras.retired ∧
        List.lookup (physSlab s e.array) t.ras.spareFor = some (physPos s e.array) ∧ seqOf t 6 = seqOf s 6 + 1)) ∧
    (sparesLeft s e.array e.isCol = 0 → isReplaced s e.array = false → spareFree s e.array = false →
      Runs (.bistComplete [.element e]) s (fun t => t.boot.stage = 0xF ∧ t.boot.fail = 4 ∧ seqOf t 6 = seqOf s 6 + 1))) ∧
  (∀ (s : State) (a : Nat), s.boot.stage = 5 →
    (isReplaced s a = true → exec (.bistComplete [.wholeArray a]) s = exec (.bistComplete []) s) ∧
    (isReplaced s a = false → spareFree s a = true → Runs (.bistComplete [.wholeArray a]) s (fun t => t.boot.stage = 6 ∧
      List.lookup (physSlab s a) t.ras.spareFor = some (physPos s a) ∧ seqOf t 6 = seqOf s 6 + 1)) ∧
    (isReplaced s a = false → spareFree s a = false →
      Runs (.bistComplete [.wholeArray a]) s (fun t => t.boot.stage = 0xF ∧ t.boot.fail = 4 ∧ seqOf t 6 = seqOf s 6 + 1))) ∧
  (∀ (s : State) (f : FuseRead), s.boot.stage = 2 → fuseAgrees s f = true → f.crcOk = false →
    Runs (.fuseStageComplete f) s (fun t =>
      t.boot = { s.boot with stage := 0xF, fail := 1 } ∧ t.silicon = { s.silicon with fuseSeen := (f :: s.silicon.fuseSeen).eraseDups } ∧ seqOf t 6 = seqOf s 6 + 1)) ∧
  (∀ (s : State) (f : FuseRead), s.boot.stage = 2 → fuseAgrees s f = true → f.crcOk = true →
    fuseSparesOk { s with silicon := { s.silicon with dieId := f.dieId, fuseMap := f.retired } } = false →
    Runs (.fuseStageComplete f) s (fun t => t.boot = { s.boot with stage := 0xF, fail := 2 } ∧ seqOf t 6 = seqOf s 6 + 1)) ∧
  (∀ (s : State) (f : FuseRead), s.boot.stage = 2 → fuseAgrees s f = false → exec (.fuseStageComplete f) s = .next s) ∧
  (∀ (s : State) (m : BistMemory) (slab : Nat) (l : List BistFinding), s.boot.stage = 5 →
    exec (.bistComplete (.memory m slab :: l)) s = .next (raise { s with
      cores := s.cores.map (fun kv => (kv.1, { kv.2 with imem := [], dmem := [] })),
      boot := { s.boot with stage := 0xF, fail := 3, coreEpoch := s.boot.coreEpoch + 1 } } 6
      Ev.bootFailed (BitVec.ofNat 24 (3 * 2 ^ 16 + 5 * 2 ^ 12 + (bistMemoryCode m * 2 ^ 8 + slab % 8))))) ∧
  (∀ (s : State) (v : List (BitVec 16)), s.boot.stage = 6 → Runs (.sensorCalibrationComplete false v) s (fun t =>
    t.boot = { s.boot with stage := 0xF, fail := 5 } ∧ (∀ i, i < 12 → Tab.get 0 t.life.sense i = v.getD i 0) ∧
    seqOf t 6 = seqOf s 6 + 1)) ∧
  (∀ s : State, s.boot.stage = 8 → s.boot.interval = false → exec .negotiationTimeout s =
    .next (raise { s with boot := { s.boot with stage := 0xF, fail := 7 } } 6 Ev.bootFailed
      (BitVec.ofNat 24 (7 * 2 ^ 16 + 8 * 2 ^ 12)))) ∧
  (∀ (s : State) (f : FuseRead) (l : List BistFinding) (ok : Bool) (v : List (BitVec 16)) (up : BitVec 64) (n : BitVec 2)
    (lanes : BitVec 32), s.boot.stage = 0xF → exec .domainReleaseComplete s = .next s ∧ exec (.fuseStageComplete f) s = .next s ∧
    exec .spareMappingComplete s = .next s ∧ exec (.bistComplete l) s = .next s ∧
    exec (.sensorCalibrationComplete ok v) s = .next s ∧ exec (.negotiationStart up n) s = .next s ∧
    exec (.negotiationIntervalEnd up lanes) s = .next s ∧ exec .negotiationTimeout s = .next s)

/-- Writes of the two restore windows: in their stage the four bytes named, and no other, take the value; outside it (for the spare
record also with the lock set) nothing but `reserved_write`; past the flowstone record a zero is accepted. `spares_done` and `life_done`
without and with a restored record, and outside their stages (R79, R317, R319, R345, R352, R370). That bytes never written are zero is
log 6, unsafe; that duplicate entries count twice and apply once is log 107; that an ignored entry counts against no spare log 130; that an ignored entry is in no live record is log 45. -/
def Obligations.RestoreWindows : Prop :=
  (∀ (s : State) (req : Req) (off : BitVec 12) (v : Word), s.boot.stage = 3 → locked s = false →
    Runs (.spareRecordRestoreWrite req off v) s (fun t =>
      (∀ i, i < 4 → t.ras.restore.byte? (off.toNat / 4 * 4 + i) = some (v.extractLsb' (8 * i) 8)) ∧
      (∀ a, a < off.toNat / 4 * 4 ∨ off.toNat / 4 * 4 + 4 ≤ a → t.ras.restore.byte? a = s.ras.restore.byte? a) ∧
      t = { dropHold s req with ras := { s.ras with restore := t.ras.restore }, boot := { s.boot with spareWritten := true } })) ∧
  (∀ (s : State) (req : Req) (off : BitVec 12) (v : Word), s.boot.stage ≠ 0 → (s.boot.stage ≠ 3 ∨ locked s = true) →
    exec (.spareRecordRestoreWrite req off v) s = .next (reservedWrite (dropHold s req) req (0x281000 + off.toNat))) ∧
  (∀ (s : State) (req : Req) (off : BitVec 13) (v : Word), s.boot.stage = 7 → off.toNat < 0x1800 →
    Runs (.lifeRecordRestoreWrite req off v) s (fun t =>
      (∀ i, i < 4 → t.life.restore.byte? (off.toNat / 4 * 4 + i) = some (v.extractLsb' (8 * i) 8)) ∧
      (∀ a, a < off.toNat / 4 * 4 ∨ off.toNat / 4 * 4 + 4 ≤ a → t.life.restore.byte? a = s.life.restore.byte? a) ∧
      t = { dropHold s req with life := { s.life with restore := t.life.restore }, boot := { s.boot with lifeWritten := true } })) ∧
  (∀ (s : State) (req : Req) (off : BitVec 13) (v : Word), s.boot.stage ≠ 0 → s.boot.stage ≠ 7 → off.toNat < 0x1800 →
    exec (.lifeRecordRestoreWrite req off v) s = .next (reservedWrite (dropHold s req) req (0x298000 + off.toNat))) ∧
  (∀ (s : State) (req : Req) (off : BitVec 13) (v : Word), s.boot.stage ≠ 0 → 0x1800 ≤ off.toNat →
    (v = 0 → exec (.lifeRecordRestoreWrite req off v) s = .next (dropHold s req)) ∧
    (v ≠ 0 → exec (.lifeRecordRestoreWrite req off v) s = .next (reservedWrite (dropHold s req) req (0x298000 + off.toNat)))) ∧
  (∀ (s : State) (req : Req), s.boot.stage ≠ 0 →
    (s.boot.stage ≠ 3 → exec (.sparesDone req) s = .next (reservedWrite (dropHold s req) req 0x000044)) ∧
    (s.boot.stage ≠ 7 → exec (.lifeDone req) s = .next (reservedWrite (dropHold s req) req 0x000044))) ∧
  (∀ (s : State) (req : Req), s.boot.stage = 3 → s.boot.spareWritten = false →
    exec (.sparesDone req) s = .next { dropHold s req with boot := { s.boot with stage := 4 } }) ∧
  (∀ (s : State) (req : Req), s.boot.stage = 3 → s.boot.spareWritten = true →
    Runs (.sparesDone req) s (fun t => t.boot.stage = 4 ∧
      (spareAccept s (bufBytes s.ras.restore (spareLen s)) = true → t.boot.spareRestored = true ∧
        ∀ e, e ∈ t.ras.retired ↔
          e ∈ parseSpares s (bufBytes s.ras.restore (spareLen s)) ∧ e ∉ s.silicon.fuseMap ∧ e.index < physSize s) ∧
      (spareAccept s (bufBytes s.ras.restore (spareLen s)) = false → t.boot.spareRestored = s.boot.spareRestored ∧
        t.ras.retired = s.ras.retired ∧ t.ras.spareFor = s.ras.spareFor ∧ seqOf t 6 = seqOf s 6 + 1))) ∧
  (∀ (s : State) (req : Req), s.boot.stage = 7 → s.boot.lifeWritten = false →
    exec (.lifeDone req) s = .next { dropHold s req with
      boot := { s.boot with stage := 8, lifeRestored := false },
      life := { s.life with
        rec_ := (LifeCounts.zero.addGlobal 19 1).addAll s.life.acc, acc := LifeCounts.zero, disc := true, saves := 0,
        saveStep := 0 } }) ∧
  (∀ (s : State) (req : Req), s.boot.stage = 7 → s.boot.lifeWritten = true →
    Runs (.lifeDone req) s (fun t => t.boot.stage = 8 ∧ t.life.acc = LifeCounts.zero ∧
      (lifeCause s (bufBytes s.life.restore 6144) = 0 → t.boot.lifeRestored = true ∧
        t.life.rec_ = ((parseLife (bufBytes s.life.restore 6144)).ofClass s).addAll s.life.acc ∧ t.evt = s.evt) ∧
      (lifeCause s (bufBytes s.life.restore 6144) ≠ 0 → t.boot.lifeRestored = false ∧ t.life.disc = true ∧
        seqOf t 7 = seqOf s 7 + 1)))

/-- What raising an event does (R305, R309): the source numbers it; its record waits behind at most seven others, else it is lost and
counted. Every command that raises goes through this one operation. -/
def Obligations.RaisedEvent : Prop :=
  ∀ (s : State) (src code : Nat) (payload : BitVec 24),
    let t := raise s src code payload
    let r : EvRec := { source := BitVec.ofNat 8 src, seq := seqOf s src, time := s.clock.ts, code := BitVec.ofNat 16 code,
                       payload := payload }
    seqOf t src = seqOf s src + 1 ∧ (∀ k, k ≠ src → seqOf t k = seqOf s k ∧ waitingRecords t k = waitingRecords s k) ∧
    ((waitingRecords s src).length < 8 → waitingRecords t src = waitingRecords s src ++ [r] ∧ t.evt.overflow = s.evt.overflow ∧
      t.intc = s.intc ∧ t.life = s.life) ∧
    (8 ≤ (waitingRecords s src).length → waitingRecords t src = waitingRecords s src ∧
      t.evt.overflow = satAdd s.evt.overflow 1) ∧
    t = { s with
      evt := { s.evt with seq := t.evt.seq, queues := t.evt.queues, overflow := t.evt.overflow },
      intc := { s.intc with pend := t.intc.pend, pulse := t.intc.pulse }, ras := { s.ras with units := t.ras.units },
      life := { s.life with acc := t.life.acc } }

/-- Bytes written to host memory and to staging are read back, and no other byte changes (R8, R268, R278). Every store of the
engine goes through these two operations. -/
def Obligations.WrittenBytesReadBack : Prop :=
  ∀ (s : State) (a : Nat) (bs : List Byte),
    (∀ i b, bs[i]? = some b → hostByteOf (writeHost s a bs).hostMem (a + i) = b ∧ stByte (stWrite s a bs) (a + i) = b) ∧
    (∀ x, x < a ∨ a + bs.length ≤ x →
      hostByteOf (writeHost s a bs).hostMem x = hostByteOf s.hostMem x ∧ stByte (stWrite s a bs) x = stByte s x) ∧
    writeHost s a bs = { s with hostMem := (writeHost s a bs).hostMem } ∧
    stWrite s a bs = { s with staging := { s.staging with bytes := (stWrite s a bs).staging.bytes } }

/-- The start of the counting interval, channels that come up in it, of those that the class has (R387), credit pulses in it and after it,
its end with and without a channel (R269, R271, R320 to R322). -/
def Obligations.Negotiation : Prop :=
  (∀ (s : State) (up mine : BitVec 64) (ver : BitVec 2), mine = up &&& BitVec.ofNat 64 (2 ^ (8 * s.slabs) - 1) →
    s.boot.stage = 8 → s.boot.interval = false → mine ≠ 0 →
    exec (.negotiationStart up ver) s = .next { s with
      pins := { s.pins with chanUp := mine },
      boot := { s.boot with
        interval := true, bmpVer := (if ver = 0 then 1 else if ver = 3 then 2 else ver), excess := 0,
        rlpSeen := (if s.pins.laneUp = 0 then none else some s.pins.rlpHost) },
      bmp := { s.bmp with chans := [] } }) ∧
  (∀ (s : State) (up mine : BitVec 64) (ver : BitVec 2), mine = up &&& BitVec.ofNat 64 (2 ^ (8 * s.slabs) - 1) →
    (s.boot.stage = 8 → s.boot.interval = true → mine ≠ 0 →
      exec (.negotiationStart up ver) s = .next { s with pins := { s.pins with chanUp := s.pins.chanUp ||| mine } }) ∧
    (s.boot.stage ≠ 8 ∨ mine = 0 → exec (.negotiationStart up ver) s = .next s)) ∧
  (∀ (s : State) (ch : Fin 64), s.boot.interval = true → s.pins.chanUp.getLsbD ch.val = true →
    (getChan s ch.val).req < (if s.boot.bmpVer = 1 then 256 else 1024) → exec (.bmpReqCredit ch) s =
      .next (setChan s ch.val { getChan s ch.val with req := (getChan s ch.val).req + 1 })) ∧
  (∀ (s : State) (ch : Fin 64), s.boot.interval = true → s.pins.chanUp.getLsbD ch.val = true →
    (if s.boot.bmpVer = 1 then 256 else 1024) ≤ (getChan s ch.val).req → s.boot.excess.getLsbD ch.val = false →
    Runs (.bmpReqCredit ch) s (fun t => t.bmp = s.bmp ∧ t.boot.excess.getLsbD ch.val = true ∧ seqOf t 4 = seqOf s 4 + 1 ∧
      exec (.bmpReqCredit ch) t = .next t)) ∧
  (∀ (s : State) (ch : Fin 64), s.boot.interval = true → s.pins.chanUp.getLsbD ch.val = true → (∀ r, r ∈ s.bmp.reqs → r.wleft = 0) →
    exec (.bmpWdataCredit ch) s =
    .next (setChan s ch.val { getChan s ch.val with wdata := (getChan s ch.val).wdata + 1 })) ∧
  (∀ (s : State) (ch : Fin 64), s.boot.interval = false → (getChan s ch.val).inService = true → exec (.bmpReqCredit ch) s =
    .next (creditBack (setChan s ch.val { getChan s ch.val with
      req := (getChan s ch.val).req + 1, reqOut := (getChan s ch.val).reqOut - 1 }) (getChan s ch.val).reqOut)) ∧
  (∀ (s : State) (ch : Fin 64), s.boot.interval = false → (getChan s ch.val).inService = false →
    exec (.bmpReqCredit ch) s = .next s ∧ ((∀ r, r ∈ s.bmp.reqs → r.wleft = 0) → exec (.bmpWdataCredit ch) s = .next s)) ∧
  (∀ (s : State) (up : BitVec 64) (lanes : BitVec 32) (total : Nat), s.boot.stage = 8 → s.boot.interval = true →
    total = (((List.range (8 * s.slabs)).filter (fun c => up.getLsbD c && decide (1 ≤ (getChan s c).req) &&
      decide (1 ≤ (getChan s c).wdata))).map (fun c => (getChan s c).req)).foldl (· + ·) 0 →
    Runs (.negotiationIntervalEnd up lanes) s (fun t =>
      t.boot.interval = false ∧ t.boot.credits = BitVec.ofNat 17 (total - 256) ∧
      (∀ c, c < 64 → t.boot.chan.getLsbD c = (decide (c < 8 * s.slabs) && up.getLsbD c && decide (1 ≤ (getChan s c).req) &&
        decide (1 ≤ (getChan s c).wdata)) ∧ (getChan t c).inService = t.boot.chan.getLsbD c ∧
        ((getChan t c).inService = true → (getChan t c).req = (getChan s c).req ∧ (getChan t c).wdata = (getChan s c).wdata)) ∧
      (t.boot.rlpVer ≠ 0 → ∀ n, n < 2 → lanes.toNat / 2 ^ (16 * n) % 65536 ≠ 0 → (getRlp t n).rx = 64) ∧
      t.boot.rlpVer = (if lanes = 0 then 0 else match s.boot.rlpSeen with
        | some v => if v = 3 then 2 else v
        | none => 0) ∧
      (256 < total → t.boot.stage = 9 ∧ seqOf t 4 = seqOf s 4 + 1) ∧
      (total ≤ 256 → t.boot.stage = 0xF ∧ t.boot.fail = 6 ∧ seqOf t 6 = seqOf s 6 + 1) ∧
      t.regs = s.regs ∧ t.hostMem = s.hostMem ∧ t.staging = s.staging ∧ t.psc = s.psc ∧ t.cores = s.cores)) ∧
  (∀ (s : State) (lanes : BitVec 32) (ver : BitVec 2), Runs (.rlpLaneUp lanes ver) s (fun t =>
    t.pins = { s.pins with laneUp := s.pins.laneUp ||| lanes, rlpHost := ver } ∧
    (s.boot.rlpSeen ≠ none ∨ s.boot.interval = false → t.boot = s.boot) ∧
    (s.boot.rlpSeen = none → s.boot.interval = true → s.pins.laneUp ||| lanes ≠ 0 →
      t.boot = { s.boot with rlpSeen := some ver }) ∧
    t = { s with pins := t.pins, boot := t.boot }))

/-- The wrapper instructions of R394, a reserved code among them, which acts as WS_BYPASS; under WS_EXTEST the boundary register gives every
output pin its level, else its own logic does. What a scan or boundary register shows, the bypass bit, what the tester shifts in and which
cell drives which pin, and that the wrapper takes no instruction while `wrstn` is low are the model's (log 16), as is that fuse programming
sets bits (log 29). -/
def Obligations.TestWrapper : Prop :=
  ∀ (s : State) (bits : BitVec 8192),
    exec .wsBypass s = .next { s with wrap := { s.wrap with wir := 0, shown := 0, drive := none } } ∧
    (∀ (code : BitVec 8) (v : Bool), (∀ k ∈ [0x01, 0x02, 0x10, 0x11, 0x12, 0x13], code.toNat ≠ k) →
      Runs .wsBypass s (fun t => let u := wrapInstr s code bits v; t = { u with wrap := { u.wrap with wir := 0 } })) ∧
    (s.pins.wrstN = false → exec .wsExtest s = exec .wsBypass s ∧ exec .wsIntest s = exec .wsBypass s ∧
      exec .zwMbist s = exec .wsBypass s ∧ (∀ v, exec (.zwFuseProg bits v) s = exec .wsBypass s) ∧
      exec .zwFuseRead s = exec .wsBypass s ∧ exec .zwId s = exec .wsBypass s) ∧
    (s.pins.testEn = false → exec .wsExtest s = exec .wsBypass s ∧ exec .wsIntest s = exec .wsBypass s ∧
      exec .zwMbist s = exec .wsBypass s ∧ ∀ v, exec (.zwFuseProg bits v) s = exec .wsBypass s) ∧
    (s.pins.wrstN = true → s.pins.testEn = true →
      Runs .wsExtest s (fun t => (∃ n, t.wrap.drive = some n ∧ ∀ p : OutPin, p.level t = some (p.driven n) ∧ p.driven n < 2 ^ p.cells.1) ∧ t = { s with
        wrap := { s.wrap with wir := 1, shown := t.wrap.shown, drive := t.wrap.drive }, freeCtr := t.freeCtr }) ∧
      Runs .wsIntest s (fun t => t = { s with
        wrap := { s.wrap with wir := 2, shown := t.wrap.shown, drive := none }, freeCtr := t.freeCtr }) ∧
      Runs .zwMbist s (fun t => t = { s with
        wrap := { wir := 0x10, shown := s.wrap.mbist.setWidth 8192, mbist := t.wrap.mbist, drive := none }, freeCtr := t.freeCtr }) ∧
      exec (.zwFuseProg bits true) s = .next { s with
        wrap := { s.wrap with wir := 0x12, shown := bits, drive := none },
        silicon := { s.silicon with fuseBits := s.silicon.fuseBits ||| bits } } ∧
      exec (.zwFuseProg bits false) s = .next { s with wrap := { s.wrap with wir := 0x12, shown := bits, drive := none } }) ∧
    (s.pins.wrstN = true →
      exec .zwFuseRead s = .next { s with wrap := { s.wrap with wir := 0x11, shown := s.silicon.fuseBits, drive := none } }) ∧
    (s.pins.wrstN = true → Runs .zwId s (fun t => t.wrap.wir = 0x13 ∧ t.wrap.shown.toNat = 0x5A475045 + s.silicon.dieId.toNat * 2 ^ 32 ∧
      t = { s with wrap := { s.wrap with wir := 0x13, shown := t.wrap.shown, drive := none } })) ∧
    (s.wrap.drive = none → (OutPin.applyOut.level s = some (if s.pins.applyOut then 1 else 0)) ∧
      OutPin.pwrRampReq.level s = some (if s.pins.rampReq then 1 else 0) ∧ OutPin.irqH.level s = some (irqH s).toNat)

/-- The address is outside every window, and no behaviour of its own hangs on a write of it. -/
def PlainAddress (s : State) (req : Req) (a : Nat) : Prop :=
  inCoreWindow a = false ∧ inSpareWindow a = false ∧ inLifeWindow a = false ∧ frozen s a = false ∧
    (∀ u v, trigger u req a v = none) ∧ a ≠ 0x250010

/-- A full write of a register without behaviour of its own: the written bits take the value, live or in the shadow of an APPLY
group, others stay; reserved bits that are set raise one `reserved_write` (R10 to R13, R361). Writes that change no register: in
part (R361), to an address that holds none, to a frozen one (R14, R370); and every register access in reset (R313). `dropHold` ends the
pairing of R363 and answers a write with zero (R387). -/
def Obligations.RegisterWrites : Prop :=
  (∀ (s : State) (req : Req) (addr : BitVec 24) (v : Word) (a : Nat) (r : RegRow),
    s.boot.stage ≠ 0 → a = addr.toNat / 4 * 4 → regRow s a = some r → PlainAddress s req a →
    reservedFields a (v.toNat &&& r.dmask) = 0 → r.wmask < 2 ^ 32 → r.dmask &&& r.wmask = r.wmask →
    ∃ t, exec (.registerWrite req addr 0xF v) s =
        .next (if v.toNat &&& r.dmask = v.toNat then t else reservedWrite t req a) ∧
      (r.acc = .rw → liveReg t a = (liveReg s a &&& ~~~ BitVec.ofNat 32 r.wmask) ||| (v &&& BitVec.ofNat 32 r.wmask) ∧
        t.regs.shadow = s.regs.shadow) ∧
      (∀ g, r.acc = .ra g → shadowReg t a = (shadowReg s a &&& ~~~ BitVec.ofNat 32 r.wmask) ||| (v &&& BitVec.ofNat 32 r.wmask) ∧
        t.regs.live = s.regs.live) ∧
      (r.acc = .ro ∨ r.acc = .wo → t.regs = s.regs) ∧
      (∀ b, b ≠ a → liveReg t b = liveReg s b ∧ shadowReg t b = shadowReg s b) ∧
      t = { dropHold s req with regs := { s.regs with live := t.regs.live, shadow := t.regs.shadow } }) ∧
  (∀ (s : State) (req : Req) (addr : BitVec 24) (be : BitVec 4) (v : Word) (a : Nat), a = addr.toNat / 4 * 4 →
    (s.boot.stage = 0 → exec (.registerWrite req addr be v) s = .next s) ∧
    (s.boot.stage ≠ 0 → be ≠ 0xF → exec (.registerWrite req addr be v) s = .next (reservedWrite (dropHold s req) req a)) ∧
    (s.boot.stage ≠ 0 → inCoreWindow a = false → inSpareWindow a = false → inLifeWindow a = false → regRow s a = none →
      exec (.registerWrite req addr 0xF 0) s = .next (dropHold s req) ∧
      (v ≠ 0 → exec (.registerWrite req addr 0xF v) s = .next (reservedWrite (dropHold s req) req a))) ∧
    (s.boot.stage ≠ 0 → (liveReg s 0x020008).getLsbD 0 = true →
      (0x000030 ≤ a ∧ a < 0x000040) ∨ (0x030100 ≤ a ∧ a < 0x030184) →
      exec (.registerWrite req addr 0xF v) s = .next (reservedWrite (dropHold s req) req a)))

/-- Reads: write-only registers and addresses without a register read zero, APPLY registers read their shadow, the upper word of a
64-bit pair read next is the one that stood with the lower (R10, R11, R361, R363). -/
def Obligations.RegisterReads : Prop :=
  ∀ (s : State) (req : Req) (addr : BitVec 24) (a : Nat), s.boot.stage ≠ 0 → a = addr.toNat / 4 * 4 →
    Runs (.coherentLowRead req addr) s (fun t =>
      ((∀ w, (getReq s req).hold ≠ some (a, w)) → (getReq t req).answer = readReg s req a) ∧
      (∀ w, (getReq s req).hold = some (a, w) → (getReq t req).answer = w) ∧
      (pairLow a = true → (regRow s a).isSome = true → (getReq t req).hold = some (a + 4, readReg s req (a + 4)) ∧
        ∀ u, getReq u req = getReq t req → u.boot.stage ≠ 0 → a + 4 < 2 ^ 24 →
          Runs (.coherentLowRead req (BitVec.ofNat 24 (a + 4))) u (fun v => (getReq v req).answer = readReg s req (a + 4))) ∧
      (∀ q, q ≠ req → getReq t q = getReq s q) ∧ t = { s with reqs := t.reqs }) ∧
    (inCoreWindow a = false → inSpareWindow a = false → inLifeWindow a = false →
      (regRow s a = none → readReg s req a = 0) ∧
      ∀ r, regRow s a = some r → (r.acc = .wo → readReg s req a = 0) ∧ (∀ g, r.acc = .ra g → readReg s req a = shadowReg s a) ∧
        (r.acc = .rw → keptElsewhere a = false → readReg s req a = liveReg s a))

/-- A register write that triggers is the command of that name (R371 to R386); a reserved bit set in it raises `reserved_write` besides
(R12). -/
def Obligations.TriggerWrites : Prop :=
  ∀ (s : State) (req : Req),
    (∀ (cond : BitVec 8) (o : Bool), exec (.registerWrite req 0x040010 0xF (BitVec.ofNat 32 (cond.toNat + if o then 256 else 0))) s =
      exec (.pscResolve req cond o) s) ∧
    (∀ m : BitVec 16, exec (.registerWrite req 0x020000 0xF (m.setWidth 32)) s = exec (.aplApply req m { out := false, withPin := false }) s) ∧
    exec (.registerWrite req 0x020008 0xF 1) s = exec (.aplLockSet req) s ∧
    exec (.registerWrite req 0x03000C 0xF 1) s = exec (.imgLoad req) s ∧
    exec (.registerWrite req 0x03000C 0xF 2) s = exec (.imgSwap req) s ∧
    exec (.registerWrite req 0x040000 0xF 1) s = exec (.runSet req) s ∧
    (s.boot.stage ≠ 0 → ∀ t, exec (.runSet req) s = .next t →
      exec (.registerWrite req 0x040000 0xF 3) s = .next (reservedWrite t req 0x040000)) ∧
    (∀ v, exec (.registerWrite req 0x250004 0xF v) s = exec (.evtTailWrite req v) s) ∧
    (∀ v, exec (.registerWrite req 0x250020 0xF v) s = exec (.evtLatch req) s) ∧
    (∀ n : BitVec 4, exec (.registerWrite req 0x260000 0xF (n.setWidth 32)) s = exec (.mbxOpen req n) s ∧
      exec (.registerWrite req 0x260004 0xF (n.setWidth 32)) s = exec (.mbxPost req n) s ∧
      exec (.registerWrite req 0x260010 0xF (n.setWidth 32)) s = exec (.mbxSnap req n) s) ∧
    exec (.registerWrite req 0x290000 0xF 1) s = exec (.lifeSave req) s ∧
    exec (.registerWrite req 0x280070 0xF 1) s = exec (.rasSpareSnap req) s

/-- APPLY by register, by pin, and by both in one CCLK as one APPLY of the union: the named groups' live values become their shadows,
nothing else changes (R11, R12, R367 to R369; that a reserved group named by the pin raises too is log 30, and left out). What an
error-feedback register made live within a step holds is not stated (R7, R252, log 8). -/
def Obligations.ApplyGroups : Prop :=
  ∀ (s : State) (req : Req) (mask : BitVec 16) (w : ApplyWrite) (m : Nat), s.boot.stage ≠ 0 →
    let pin := (liveReg s 0x020004).toNat % 65536
    (m = (if w.withPin then mask.toNat ||| pin else mask.toNat) → m < 256 → Runs (.aplApply req mask w) s (fun t =>
      (∀ a g, raGroup s a = some g → bitAt m g = true → (g = 7 → inStep s = false) →
        (List.lookup a s.regs.shadow).isSome = true ∨ liveReg s a = shadowReg s a → liveReg t a = shadowReg s a) ∧
      (∀ a, (∀ g, raGroup s a = some g → bitAt m g = false) → liveReg t a = liveReg s a) ∧
      t.pins = { s.pins with applyOut := s.pins.applyOut || w.out } ∧
      (m = 0 → t.regs = s.regs) ∧ (m ≠ 0 → t.regs = { s.regs with
        live := t.regs.live, applied := BitVec.ofNat 16 m, pin := w.withPin && pin != 0, applyCnt := s.regs.applyCnt + 1 }) ∧
      t = { dropHold s req with regs := t.regs, pins := t.pins, freeCtr := t.freeCtr } ∧ (inStep s = false → t.freeCtr = s.freeCtr))) ∧
    (m = pin → m < 256 → Runs .applyInPulse s (fun t =>
      (∀ a g, raGroup s a = some g → bitAt m g = true → (g = 7 → inStep s = false) →
        (List.lookup a s.regs.shadow).isSome = true ∨ liveReg s a = shadowReg s a → liveReg t a = shadowReg s a) ∧
      (∀ a, (∀ g, raGroup s a = some g → bitAt m g = false) → liveReg t a = liveReg s a) ∧
      (m = 0 → t.regs = s.regs) ∧ (m ≠ 0 → t.regs = { s.regs with
        live := t.regs.live, applied := BitVec.ofNat 16 m, pin := true, applyCnt := s.regs.applyCnt + 1 }) ∧
      t = { s with regs := t.regs, freeCtr := t.freeCtr } ∧ (inStep s = false → t.freeCtr = s.freeCtr))) ∧
    (256 ≤ mask.toNat → w.withPin = false → Runs (.aplApply req mask w) s (fun t => ∃ u,
      exec (.aplApply req (BitVec.ofNat 16 (mask.toNat % 256)) w) s = .next u ∧ t = reservedWrite u req 0x020000)) ∧
    exec .applyOutPulseEnd s = .next { s with pins := { s.pins with applyOut := false } }

/-- The lock (R323, R370): set for good, and start-up ends in stage 0xA once an image is live. -/
def Obligations.LockAndReady : Prop :=
  ∀ (s : State) (req : Req), s.boot.stage ≠ 0 →
    (s.boot.stage ≠ 9 ∨ s.img.live = none → exec (.aplLockSet req) s = .next (setLive (dropHold s req) 0x020008 1)) ∧
    (∀ img, s.boot.stage = 9 → s.img.live = some img → Runs (.aplLockSet req) s (fun t => t.boot = { s.boot with stage := 0xA } ∧
      liveReg t 0x020008 = 1 ∧ seqOf t 2 = seqOf s 2 + 1 ∧ (∀ a, a ≠ 0x020008 → liveReg t a = liveReg s a) ∧
      t = { dropHold s req with
        boot := t.boot, regs := t.regs, evt := t.evt, intc := t.intc, ras := t.ras, life := t.life })) ∧
    exec (.registerWrite req 0x020008 0xF 0) s = .next (dropHold s req)

/-- Requesting a load, also while one is under way or a swap is pending, validating what it fetched, swapping the planes (R176 to R180).
The end of the fetch by the command's operand and the bytes judged are the model's (log 23); a swap at once between an abort and its
repeat is the model's reading (log 43). -/
def Obligations.ImagePlanes : Prop :=
  (∀ (s : State) (req : Req), s.boot.stage ≠ 0 → s.img.swapPending = false → s.img.loading = none → Runs (.imgLoad req) s (fun t =>
    t.img = { s.img with
      shadow := none, state := 1, code := 0, sect := 0,
      loading := some (livePair s 0x030000 % 2 ^ 52, (liveReg s 0x030008).toNat), keys := keyRegs s } ∧
    t = { dropHold s req with img := t.img, bmp := { s.bmp with jobs := t.bmp.jobs, nextJob := t.bmp.nextJob } })) ∧
  (∀ (s : State) (req : Req) (old : Nat × Nat), s.boot.stage ≠ 0 → s.img.swapPending = false → s.img.loading = some old →
    Runs (.imgLoad req) s (fun t => seqOf t 1 = seqOf s 1 + 1 ∧ t.img = { s.img with
      shadow := none, state := 1, code := 0, sect := 0,
      loading := some (livePair s 0x030000 % 2 ^ 52, (liveReg s 0x030008).toNat), keys := keyRegs s } ∧
      ((waitingRecords s 1).length < 8 → ∃ r, waitingRecords t 1 = waitingRecords s 1 ++ [r] ∧ r.payload = 0x0FFFFF))) ∧
  (∀ (s : State) (req : Req), s.boot.stage ≠ 0 → s.img.swapPending = true → exec (.imgLoad req) s =
    .next (raise { dropHold s req with img := { s.img with code := 0x11, sect := 0xFFFF } } 1 Ev.imageRejected 0x11FFFF)) ∧
  (∀ (s : State) (src len : Nat) (ok : Bool), s.img.loading = some (src, len) → s.boot.stage = 9 ∨ s.boot.stage = 0xA →
    Runs (.imageValidate ok) s (fun t => t.img.loading = none ∧ t.img.live = s.img.live) ∧
    (len % 64 = 0 → 1152 ≤ len → len ≤ 4194304 → ok = true → (∀ j ∈ s.bmp.jobs, j.kind ≠ .image) →
      (imageFault s len (portBytes s src len) = none → Runs (.imageValidate ok) s (fun t =>
        t.img = { s.img with
          shadow := some (portBytes s src len), state := 2, code := 0, sect := 0, loading := none } ∧
        t.bmp = s.bmp ∧ t.hostMem = s.hostMem ∧ t.psc = s.psc ∧ t.regs = s.regs)) ∧
      (∀ c e, imageFault s len (portBytes s src len) = some (c, e) → Runs (.imageValidate ok) s (fun t =>
        t.img = { s.img with
          shadow := none, state := 3, code := BitVec.ofNat 8 c, sect := BitVec.ofNat 16 e, loading := none }))) ∧
    (len % 64 = 0 → 1152 ≤ len → len ≤ 4194304 → ok = false → Runs (.imageValidate ok) s (fun t =>
      t.img = { s.img with shadow := none, state := 3, code := 0x0E, sect := 0xFFFF, loading := none } ∧ seqOf t 1 = seqOf s 1 + 1)) ∧
    (len % 64 ≠ 0 ∨ len < 1152 ∨ 4194304 < len → Runs (.imageValidate ok) s (fun t =>
      t.img = { s.img with shadow := none, state := 3, code := 0x06, sect := 0xFFFF, loading := none } ∧ seqOf t 1 = seqOf s 1 + 1))) ∧
  (∀ (s : State) (req : Req) (img : List Byte), s.boot.stage ≠ 0 → s.img.state = 2 → s.img.swapPending = false → s.img.shadow = some img →
    (s.psc.run = true ∨ s.psc.stepOn = true →
      exec (.imgSwap req) s = .next { dropHold s req with img := { s.img with swapPending := true } }) ∧
    (s.psc.run = false → s.psc.stepOn = false → Runs (.imgSwap req) s (fun t => t.img = { s.img with
        live := some img, shadow := none, state := 0, swapPending := false, variant := 0, staged := none, swapTo := none } ∧
      t.sump.groups = [] ∧ t.sump.totals = [] ∧ seqOf t 1 = seqOf s 1 + 1 ∧
      (s.boot.stage = 9 → locked s = true → t.boot.stage = 0xA) ∧ (s.boot.stage ≠ 9 ∨ locked s = false → t.boot = s.boot)))) ∧
  (∀ (s : State) (req : Req), s.boot.stage ≠ 0 → s.img.state = 2 → s.img.swapPending = true →
    exec (.imgSwap req) s = .next (dropHold s req)) ∧
  (∀ (s : State) (req : Req), s.boot.stage ≠ 0 → s.img.state ≠ 2 → Runs (.imgSwap req) s (fun t =>
    t.img = s.img ∧ seqOf t 1 = seqOf s 1 + 1))

/-- Copying the oldest record, freeing log slots, and the entry of a waiting record into the log, which takes none before it is clear
(R305, R309, R310, R314). -/
def Obligations.EventLog : Prop :=
  (∀ (s : State) (req : Req), s.boot.stage ≠ 0 → Runs (.evtLatch req) s (fun t =>
    (getReq t req).ridx = s.evt.tail ∧ (getReq t req).copied = (s.evt.head != s.evt.tail) ∧ (getReq t req).hold = none ∧
    (s.evt.head = s.evt.tail → (getReq t req).record = 0) ∧
    (∀ r, s.evt.head ≠ s.evt.tail → List.lookup (s.evt.tail.toNat % 8192) s.evt.ring = some r →
      (getReq t req).record = r.payload ++ r.code ++ r.time ++ r.seq ++ r.source) ∧
    (∀ q, q ≠ req → getReq t q = getReq s q) ∧ t = { s with reqs := t.reqs })) ∧
  (∀ (s : State) (req : Req) (v : Word), s.boot.stage ≠ 0 →
    ((s.evt.head - v).toNat ≤ 8192 → Runs (.evtTailWrite req v) s (fun t => t.evt = { s.evt with tail := v } ∧
      t = { dropHold s req with evt := t.evt, intc := { s.intc with pend := t.intc.pend, level := t.intc.level } })) ∧
    (8192 < (s.evt.head - v).toNat →
      exec (.evtTailWrite req v) s = .next (reservedWrite (dropHold s req) req 0x250004))) ∧
  (∀ (s : State) (src : BitVec 8) (r : EvRec) (rest : List EvRec), 3 ≤ s.boot.stage.toNat → waitingRecords s src.toNat = r :: rest →
    Runs (.eventLogWrite src) s (fun t =>
      List.lookup (s.evt.head.toNat % 8192) t.evt.ring = some r ∧ t.evt.head = s.evt.head + 1 ∧
      (∀ i, i ≠ s.evt.head.toNat % 8192 → List.lookup i t.evt.ring = List.lookup i s.evt.ring) ∧
      waitingRecords t src.toNat = rest ∧ (∀ k, k ≠ src.toNat → waitingRecords t k = waitingRecords s k) ∧
      ((s.evt.head - s.evt.tail).toNat = 8192 → t.evt.tail = s.evt.tail + 1 ∧ t.evt.overflow = satAdd s.evt.overflow 1) ∧
      ((s.evt.head - s.evt.tail).toNat ≠ 8192 → t.evt.tail = s.evt.tail ∧ t.evt.overflow = s.evt.overflow) ∧
      t.evt.seq = s.evt.seq ∧
      t = { s with
        evt := t.evt, intc := { s.intc with pend := t.intc.pend, pulse := t.intc.pulse, level := t.intc.level },
        ras := { s.ras with units := t.ras.units }, life := { s.life with acc := t.life.acc } })) ∧
  (∀ (s : State) (src : BitVec 8), waitingRecords s src.toNat = [] ∨ s.boot.stage.toNat < 3 → exec (.eventLogWrite src) s = .next s)

/-- The wrap of the timestamp (R305), and the result mailboxes 4 to 15; 0 to 3 are the engine's (R311, R312). That a level-sensed source is
pending after a post, until the next arbitration, is the model's choice (log 20), as is the answer that a write leaves (log 26). -/
def Obligations.EpochAndMailboxes : Prop :=
  (∀ s : State, s.boot.stage ≠ 0 → exec .tsEpoch s = .next (raise { s with clock := { s.clock with ts := 0, epoch := s.clock.epoch + 1 } }
    9 Ev.tsEpoch ((s.clock.epoch + 1).setWidth 24))) ∧
  (∀ (s : State) (req : Req) (n : BitVec 4), s.boot.stage ≠ 0 → 4 ≤ n.toNat →
    exec (.mbxOpen req n) s = .next (setMbx (dropHold s req) n.toNat { getMbx s n.toNat with ready := false }) ∧
    Runs (.mbxPost req n) s (fun t => getMbx t n.toNat =
        { value := (getReq s req).pval, seq := (getMbx s n.toNat).seq + 1, ready := true } ∧
      (∀ k, k ≠ n.toNat → getMbx t k = getMbx s k) ∧
      (intSense s (32 + n.toNat) ≠ 0 → t.intc.pend.getLsbD (32 + n.toNat) = true) ∧
      (intSense s (32 + n.toNat) = 0 → intPending t (32 + n.toNat) = !intActive s (32 + n.toNat)) ∧
      t = { dropHold s req with mbx := t.mbx, intc := { s.intc with pend := t.intc.pend, pulse := t.intc.pulse } })) ∧
  (∀ (s : State) (req : Req) (n : BitVec 4), s.boot.stage ≠ 0 → n.toNat < 4 →
    exec (.mbxOpen req n) s = .next (reservedWrite (dropHold s req) req 0x260000) ∧
    exec (.mbxPost req n) s = .next (reservedWrite (dropHold s req) req 0x260004)) ∧
  (∀ (s : State) (req : Req) (n : BitVec 4), s.boot.stage ≠ 0 → Runs (.mbxSnap req n) s (fun t => getReq t req = { getReq s req with
      hold := none, answer := 0, sval := (getMbx s n.toNat).value, sseq := (getMbx s n.toNat).seq, sready := (getMbx s n.toNat).ready, smbx := n } ∧
    (∀ q, q ≠ req → getReq t q = getReq s q) ∧ t = { s with reqs := t.reqs }))

/-- Claims and completions (R303), software sources (R299), the end of a moderation hold. An arbitration delivers at most one source:
a pending, enabled one that is not active, of the highest priority and then the lowest number, to the eligible target at which the
least is active (R302 to R304). It samples the idle inputs of the host lines, and a line is high while a delivery to it is presented
(R303). That a pulse of a level-sensed source lasts until the next arbitration, and that a lifted mask stands for three of them, is the
model's choice (log 20), as is how the idle inputs come to be sampled (log 91). -/
def Obligations.Interrupts : Prop :=
  (∀ (s : State) (req : Req) (t : Fin 8) (n : BitVec 8), s.boot.stage ≠ 0 →
    (List.lookup t.val s.intc.held = some n.toNat → Runs (.intAck req t n) s (fun u =>
      (∀ m, m < 256 → u.intc.act.getLsbD m = (m == n.toNat || s.intc.act.getLsbD m) ∧
        u.intc.pend.getLsbD m = (m != n.toNat && s.intc.pend.getLsbD m)) ∧
      List.lookup n.toNat u.intc.atgt = some t.val ∧ List.lookup t.val u.intc.held = none ∧
      (∀ k, k ≠ t.val → List.lookup k u.intc.held = List.lookup k s.intc.held) ∧
      u = { dropHold s req with intc := { s.intc with act := u.intc.act, atgt := u.intc.atgt, pend := u.intc.pend, held := u.intc.held } })) ∧
    (List.lookup t.val s.intc.held ≠ some n.toNat →
      exec (.intAck req t n) s = .next (reservedWrite (dropHold s req) req (0x240508 + 16 * t.val))) ∧
    (s.intc.act.getLsbD n.toNat = true → List.lookup n.toNat s.intc.atgt = some t.val → Runs (.intEoi req t n) s (fun u =>
      (∀ m, m < 256 → u.intc.act.getLsbD m = (m != n.toNat && s.intc.act.getLsbD m)) ∧
      u = { dropHold s req with intc := { s.intc with act := u.intc.act, atgt := u.intc.atgt } })) ∧
    (s.intc.act.getLsbD n.toNat = false ∨ List.lookup n.toNat s.intc.atgt ≠ some t.val →
      exec (.intEoi req t n) s = .next (reservedWrite (dropHold s req) req (0x24050C + 16 * t.val)))) ∧
  (∀ (s : State) (req : Req) (i : Fin 6) (bits : Word), s.boot.stage ≠ 0 →
    Runs (.intSwset req i bits) s (fun u => (∀ m, m < 192 → u.intc.sw.getLsbD m =
        (s.intc.sw.getLsbD m || (decide (32 * i.val ≤ m) && bits.getLsbD (m - 32 * i.val)))) ∧
      u = { dropHold s req with intc := { s.intc with sw := u.intc.sw, pend := u.intc.pend, level := u.intc.level } }) ∧
    Runs (.intSwclr req i bits) s (fun u => (∀ m, m < 192 → u.intc.sw.getLsbD m =
        (s.intc.sw.getLsbD m && !(decide (32 * i.val ≤ m) && bits.getLsbD (m - 32 * i.val)))) ∧
      u = { dropHold s req with intc := { s.intc with sw := u.intc.sw, pend := u.intc.pend, level := u.intc.level } })) ∧
  (∀ (s : State) (t : Fin 8), Runs (.moderationExpire t) s (fun u =>
    (∀ m, m < 8 → u.intc.modr.getLsbD m = (m != t.val && s.intc.modr.getLsbD m)) ∧
    u = { s with intc := { s.intc with modr := u.intc.modr } })) ∧
  (∀ s : State, (s.boot.stage = 0 → sampleIdle s = s) ∧ (s.boot.stage ≠ 0 →
    sampleIdle s = { s with pins := { s.pins with irqIdle := Config.hostIdle s.freeCtr }, freeCtr := s.freeCtr + 1 })) ∧
  (∀ (r s : State) (n t : Nat), s = sampleIdle r → intFirst s = some (n, t) →
    n < 256 ∧ t < 8 ∧ intPending s n = true ∧ intEnabled s n = true ∧ intActive s n = false ∧ intEligible s n t = true ∧
    (∀ m u, (m, u) ∈ intOffers s → intPrio s m < intPrio s n ∨ (intPrio s m = intPrio s n ∧ n ≤ m)) ∧
    (∀ u, u < 8 → intEligible s n u = true → ranksBelow (intCurrent s u) (intCurrent s t) = false) ∧
    Runs .intDelivery r (fun v =>
      ((liveReg s (0x240500 + 16 * t)).toNat % 65536 ≠ 0 → v.intc.modr.getLsbD t = true) ∧
      v = { s with intc := { s.intc with held := s.intc.held.put t n, modr := v.intc.modr, grace := v.intc.grace, pulse := 0 } })) ∧
  (∀ r s : State, s = sampleIdle r → (∀ n t, n < 256 → t < 8 → intPending s n = true → intEnabled s n = true →
    intActive s n = false → intEligible s n t = false) →
    Runs .intDelivery r (fun v => v = { s with intc := { s.intc with grace := v.intc.grace, pulse := 0 } })) ∧
  (∀ (s : State) (i : Nat), i < 4 → (irqH s).getLsbD i = (List.lookup (4 + i) s.intc.held).isSome)

/-- The flowstone record: a save request, the flush with and without a save, the histogram (R349 to R351, R392). A telemetry snapshot: a
transfer of 128 bytes to record w mod capacity of the ring; a lost one raises, and ends no step (R354; that w moves on and the counts
restart with the quantum is log 28, that a failed write's bytes are open log 131). A quantum for which there is no reserved bundle, slack or forced slot yields (R341; what lets
one run is log 110). That none runs, and no save is taken, in stage 0xF is log 36. -/
def Obligations.LifetimeAndTelemetry : Prop :=
  (∀ (s : State) (req : Req), 8 ≤ s.boot.stage.toNat → s.boot.stage ≠ 0xF →
    exec (.lifeSave req) s = .next { dropHold s req with life := { s.life with busy := true } }) ∧
  (∀ (s : State) (req : Req), s.boot.stage ≠ 0 → s.boot.stage.toNat < 8 ∨ s.boot.stage = 0xF →
    exec (.lifeSave req) s = .next (reservedWrite (dropHold s req) req 0x290000)) ∧
  (∀ s : State, quantumRuns s 4 8 8 = false → exec .lifetimeFlush s = .next s) ∧
  (∀ s : State, 8 ≤ s.boot.stage.toNat → s.boot.stage ≠ 0xF → quantumRuns s 4 8 8 = true → s.life.busy = false →
    exec .lifetimeFlush s = .next { spendForced s 4 8 with life := { s.life with rec_ := s.life.rec_.addAll s.life.acc, acc := LifeCounts.zero } }) ∧
  (∀ s : State, 8 ≤ s.boot.stage.toNat → s.boot.stage ≠ 0xF → quantumRuns s 4 8 8 = true → s.life.busy = true →
    Runs .lifetimeFlush s (fun t =>
    t.life.saves = satAdd s.life.saves 1 ∧ t.life.saveStep = s.psc.step ∧ t.life.ready = true ∧ t.life.busy = false ∧
    t.life.rec_ = { s.life.rec_.addAll s.life.acc with
      globals := (s.life.rec_.addAll s.life.acc).globals.put 20 ((satAdd s.life.saves 1).setWidth 64) } ∧
    t.life.saveBuf = lifeRecord t ∧ seqOf t 7 = seqOf s 7 + 1 ∧
    t = { s with evt := t.evt, intc := t.intc, ras := t.ras, life := t.life })) ∧
  (∀ (s : State) (t16 : Int) (mv : CoreSupply), 8 ≤ s.boot.stage.toNat → s.boot.stage ≠ 0xF → Runs (.histogramSecond t16 mv) s (fun t =>
    (∀ i, Tab.get 0 t.life.rec_.temps i = (if i = 8 * tempBin t16 + voltBin (min mv.arr mv.log) then satAdd (Tab.get 0 s.life.rec_.temps i) 1
      else Tab.get 0 s.life.rec_.temps i)) ∧
    t = { s with life := { s.life with rec_ := { s.life.rec_ with temps := t.life.rec_.temps } } })) ∧
  (∀ (t16 : Int) (mv : Nat), tempBin t16 < 16 ∧ voltBin mv < 8) ∧
  (∀ (s : State) (v : List (BitVec 16)), 8 ≤ s.boot.stage.toNat → s.boot.stage ≠ 0xF → quantumRuns s 3 8 8 = true →
    (liveReg s 0x290018).toNat % 65536 ≠ 0 → Runs (.telemetrySnapshot v) s (fun t => ∃ j : Job,
      t.bmp = { s.bmp with jobs := s.bmp.jobs ++ [j], nextJob := s.bmp.nextJob + 1 } ∧
      j.id = s.bmp.nextJob ∧ j.kind = .tel s.life.telW.toNat ∧ j.reads = false ∧ j.writes = true ∧ j.len = 128 ∧
      j.dst = livePair s 0x290010 % 2 ^ 52 + s.life.telW.toNat % 2 ^ ((liveReg s 0x290018).toNat / 65536 % 16) * 128 ∧
      (∀ i, i < 128 → j.buf.byte? i = (telRecord (setSense s v))[i]?) ∧
      t.life = { s.life with telW := s.life.telW + 1, snapIss := s.psc.issued, snapStall := s.psc.stalls, snapDroop := 0, sense := t.life.sense } ∧
      (∀ n, n < 12 → Tab.get (0 : BitVec 16) t.life.sense n = v.getD n 0) ∧
      t = { spendForced s 3 8 with bmp := t.bmp, life := t.life })) ∧
  (∀ (s : State) (v : List (BitVec 16)), quantumRuns s 3 8 8 = false ∨ (liveReg s 0x290018).toNat % 65536 = 0 →
    exec (.telemetrySnapshot v) s = .next s) ∧
  (∀ (s : State) (r : BmpReq) (j : Job) (w code : Nat), s.bmp.jobs.find? (fun x => x.id == r.job) = some j → j.kind = .tel w →
    requestFails s r code = raise (dropJob (raise (spoilWrite s r) 4 code (pack [(6, r.ch), (10, r.tag)])) j.id) 7 Ev.telWriteFailed
      (BitVec.ofNat 24 w))

/-- The power-cap port: a new cap, the end of a window and its throttle count, the droop pause (R355, R356, R358). Load ramps: the
start after a pause, with and without the handshake, its acknowledge and time-out, its steps (R357, R358; log 27, also for an acknowledge
that is high already, which lets a ramp start at once, and for `began`, from which idling counts anew); the ramp sees its registers as of
the last bundle boundary (R10, log 108). The estimate in mW against a cap in W is log 68. -/
def Obligations.PowerPorts : Prop :=
  (∀ (s : State) (cap : BitVec 10), s.boot.stage ≠ 0 → exec (.pwrCapStrobe cap) s = .next (raise { s with
    pins := { s.pins with capStb := !s.pins.capStb, cap := cap }, pwr := { s.pwr with nextCap := cap, pending := true } }
    8 Ev.capChanged (BitVec.ofNat 24 cap.toNat))) ∧
  (∀ (s : State) (est : Nat), s.boot.stage ≠ 0 → Runs (.powerWindow est) s (fun t =>
    (s.pwr.cap = 0 → t.pwr.b = 0) ∧
    (s.pwr.cap ≠ 0 → s.pwr.cap.toNat * 1000 < est → t.pwr.b = min 15 (s.pwr.b + 1)) ∧
    (s.pwr.cap ≠ 0 → 16 * est ≤ 15 * (s.pwr.cap.toNat * 1000) → t.pwr.b = s.pwr.b - 1) ∧
    (s.pwr.cap ≠ 0 → est ≤ s.pwr.cap.toNat * 1000 → 15 * (s.pwr.cap.toNat * 1000) < 16 * est → t.pwr.b = s.pwr.b) ∧
    t.pwr = { s.pwr with b := t.pwr.b, est := est, cap := (if s.pwr.pending then s.pwr.nextCap else s.pwr.cap), pending := false } ∧
    (s.pwr.b = 0 → t.pwr.b ≠ 0 → seqOf t 8 = seqOf s 8 + 1) ∧ (s.pwr.b ≠ 0 ∨ t.pwr.b = 0 → t.evt = s.evt) ∧
    t = { s with pwr := t.pwr, evt := t.evt, intc := t.intc, ras := t.ras, life := t.life })) ∧
  (∀ s : State, s.boot.stage ≠ 0 → s.pins.droopN = true → Runs .droopFall s (fun t => t.pwr = { s.pwr with paused := true } ∧
    t.pins = { s.pins with droopN := false } ∧ t.life.snapDroop = satAdd s.life.snapDroop 1 ∧ seqOf t 8 = seqOf s 8 + 1 ∧
    powerHolds t = true ∧
    t = { s with pwr := t.pwr, pins := t.pins, evt := t.evt, intc := t.intc, ras := t.ras, life := t.life })) ∧
  (∀ s : State, s.pins.droopN = false → s.pwr.paused = true →
    ((aclkReg s 0x2A0000).getLsbD 0 = false ∨ s.pins.rampAck = true) → (s.pwr.waiting = false ∨ s.pins.rampAck = false) → exec .droopRise s =
    .next { s with
      pins := { s.pins with droopN := true, rampReq := false },
      pwr := { s.pwr with paused := false, r := (aclkReg s 0x2A0004).toNat / 65536 % 16, waiting := false, began := s.clock.aclk } }) ∧
  (∀ s : State, s.pins.droopN = false → s.pwr.paused = true → s.pwr.waiting = true → s.pins.rampAck = true → exec .droopRise s =
    .next { s with
      pins := { s.pins with droopN := true, rampReq := false, rampAck := false },
      pwr := { s.pwr with paused := false, r := (aclkReg s 0x2A0004).toNat / 65536 % 16, waiting := false, began := s.clock.aclk } }) ∧
  (∀ s : State, s.pins.droopN = false → s.pwr.paused = false → exec .droopRise s = .next { s with pins := { s.pins with droopN := true } }) ∧
  (∀ s : State, s.pwr.waiting = false ∨ s.pwr.paused = true →
    exec .pwrRampAck s = .next { s with pins := { s.pins with rampAck := true } } ∧ exec .rampTimeout s = .next s) ∧
  (∀ s : State, s.pins.droopN = false → s.pwr.paused = true → (aclkReg s 0x2A0000).getLsbD 0 = true → s.pins.rampAck = false →
    exec .droopRise s = .next { s with
      pins := { s.pins with droopN := true, rampReq := true }, pwr := { s.pwr with paused := false, waiting := true } }) ∧
  (∀ s : State, s.pwr.waiting = true → s.pwr.paused = false → exec .pwrRampAck s = .next { s with
    pins := { s.pins with rampReq := false, rampAck := false },
    pwr := { s.pwr with r := (aclkReg s 0x2A0004).toNat / 65536 % 16, waiting := false, began := s.clock.aclk } }) ∧
  (∀ s : State, s.pwr.waiting = true → s.pwr.paused = false → Runs .rampTimeout s (fun t => seqOf t 8 = seqOf s 8 + 1 ∧
    t.pins = { s.pins with rampReq := false } ∧
    t.pwr = { s.pwr with r := (aclkReg s 0x2A0004).toNat / 65536 % 16, waiting := false, began := s.clock.aclk } ∧
    t = { s with pins := t.pins, pwr := t.pwr, evt := t.evt, intc := t.intc, ras := t.ras, life := t.life })) ∧
  (∀ s : State, s.pwr.waiting = false → s.pwr.paused = false →
    exec .rampStep s = .next { s with pwr := { s.pwr with r := s.pwr.r - 1 } }) ∧
  (∀ s : State, s.pwr.waiting = true ∨ s.pwr.paused = true → exec .rampStep s = .next s ∧ powerHolds s = true)

/-- A core runs one instruction to its end: `f` is what it does to the core, `next` where it goes on; the cycles it takes above
one are open (R291, log 7). -/
def CoreDone (s t : State) (n : Nat) (next : Word) (f : Core → Core) : Prop :=
  getCore t n = { f (getCore s n) with
    pc := next, ztimeh := none, wfi := false, npop := false, minstret := (getCore s n).minstret + 1,
    mcycle := (getCore s n).mcycle + 1 + BitVec.ofNat 64 (Config.cclkExtra s.freeCtr) } ∧
  (∀ k, k ≠ n → getCore t k = getCore s k) ∧ t.freeCtr = s.freeCtr + 1

/-- A core takes a synchronous trap: cause, value, old pc and interrupt enable saved, on at mtvec, `cc_trap` raised (R292). -/
def CoreTrapped (s t : State) (n cause : Nat) (tval : Word) : Prop :=
  getCore t n = { getCore s n with
    mepc := (getCore s n).pc, mcause := BitVec.ofNat 32 cause, mtval := tval, mpie := (getCore s n).mie, mie := false,
    pc := (getCore s n).mtvec, ztimeh := none, wfi := false, npop := false,
    mcycle := (getCore s n).mcycle + 1 + BitVec.ofNat 64 (Config.cclkExtra s.freeCtr) } ∧
  (∀ k, k ≠ n → getCore t k = getCore s k) ∧ seqOf t (0x18 + n) = seqOf s (0x18 + n) + 1 ∧
  t = { s with cores := t.cores, freeCtr := s.freeCtr + 1, evt := t.evt, intc := t.intc, ras := t.ras, life := t.life }

/-- Holding and releasing a core, and the window into its memories (R293, R386). -/
def Obligations.CoreControl : Prop :=
  ∀ (s : State) (req : Req) (core : Fin 4) (off : BitVec 15) (v : Word), s.boot.stage ≠ 0 →
    let c := getCore s core.val
    let sel := (liveReg s (0x30000C + 0x10000 * core.val)).toNat % 4
    let a := sel % 2 * 32768 + off.toNat / 4 * 4
    (c.hold = false → exec (.ccHoldSet req core) s = .next (setCore (dropHold s req) core.val { Core.reset with
      cnt := c.cnt, scalar := c.scalar, notify := c.notify, imem := c.imem, dmem := c.dmem })) ∧
    (c.hold = true → exec (.ccHoldClear req core) s = .next (setCore (dropHold s req) core.val { Core.reset with
      hold := false, cnt := c.cnt, scalar := c.scalar, notify := c.notify, imem := c.imem, dmem := c.dmem })) ∧
    (2 ≤ sel → Runs (.ccWindowWrite req core off v) s (fun t =>
      (∀ i, i < 4 → (getCore t core.val).dmem.byte? (a + i) = some (v.extractLsb' (8 * i) 8)) ∧
      (∀ x, x < a ∨ a + 4 ≤ x → (getCore t core.val).dmem.byte? x = c.dmem.byte? x) ∧
      t = setCore (dropHold s req) core.val { c with dmem := (getCore t core.val).dmem })) ∧
    (sel < 2 → c.hold = true → Runs (.ccWindowWrite req core off v) s (fun t =>
      (∀ i, i < 4 → (getCore t core.val).imem.byte? (a + i) = some (v.extractLsb' (8 * i) 8)) ∧
      (∀ x, x < a ∨ a + 4 ≤ x → (getCore t core.val).imem.byte? x = c.imem.byte? x) ∧
      t = setCore (dropHold s req) core.val { c with imem := (getCore t core.val).imem })) ∧
    (sel < 2 → c.hold = false → exec (.ccWindowWrite req core off v) s =
      .next (reservedWrite (dropHold s req) req (0x308000 + 0x10000 * core.val + off.toNat)))

/-- Instructions of a control core by opcode: upper immediates, jumps, branches, arithmetic with and without the M extension,
fences, loads from and stores to data memory (R291, R292; the encodings are RISC-V's, log 15). -/
def Obligations.CoreInstructions : Prop :=
  ∀ (s : State) (core : Fin 4) (w word len : Nat),
    coreRuns s core.val = true → coreFetch s core.val = .ok (some w, word, len) →
    let n := core.val
    let c := getCore s n
    let next := c.pc + BitVec.ofNat 32 len
    let rd := fld w 11 7
    let a := c.reg (fld w 19 15)
    let b := c.reg (fld w 24 20)
    let quiet := fun (t : State) => t = { s with cores := t.cores, freeCtr := t.freeCtr }
    (fld w 6 0 = 0x37 → Runs (.ccInstruction core .sound) s (fun t => CoreDone s t n next (fun c => c.setReg rd (immU w)) ∧ quiet t)) ∧
    (fld w 6 0 = 0x17 → Runs (.ccInstruction core .sound) s (fun t => CoreDone s t n next (fun c => c.setReg rd (c.pc + immU w)) ∧ quiet t)) ∧
    (fld w 6 0 = 0x6F → Runs (.ccInstruction core .sound) s (fun t => CoreDone s t n (c.pc + immJ w) (fun c => c.setReg rd next) ∧ quiet t)) ∧
    (fld w 6 0 = 0x67 → fld w 14 12 = 0 →
      Runs (.ccInstruction core .sound) s (fun t => CoreDone s t n ((a + immI w) &&& 0xFFFFFFFE) (fun c => c.setReg rd next) ∧ quiet t)) ∧
    (∀ k, fld w 6 0 = 0x63 → branchTaken (fld w 14 12) a b = some k →
      Runs (.ccInstruction core .sound) s (fun t => CoreDone s t n (if k then c.pc + immB w else next) id ∧ quiet t)) ∧
    (fld w 6 0 = 0x13 → immLegal w = true → Runs (.ccInstruction core .sound) s (fun t =>
      CoreDone s t n next (fun c => c.setReg rd (aluOp (fld w 14 12) (fld w 14 12 == 5 && bitAt w 30) a (immI w))) ∧ quiet t)) ∧
    (fld w 6 0 = 0x33 → opLegal w = true → Runs (.ccInstruction core .sound) s (fun t => CoreDone s t n next (fun c => c.setReg rd
      (if fld w 31 25 = 1 then mulOp (fld w 14 12) a b else aluOp (fld w 14 12) (bitAt w 30) a b)) ∧ quiet t)) ∧
    (fld w 6 0 = 0x0F → fld w 14 12 ≤ 1 → Runs (.ccInstruction core .sound) s (fun t => CoreDone s t n next id ∧ quiet t)) ∧
    (∀ m sgn, fld w 6 0 = 0x03 → loadShape (fld w 14 12) = some (m, sgn) → (a + immI w).toNat % m = 0 →
      0x10000 ≤ (a + immI w).toNat → (a + immI w).toNat < 0x20000 → Runs (.ccInstruction core .sound) s (fun t => CoreDone s t n next
        (fun c => c.setReg rd (loadValue sgn m (coreMemNat s n true ((a + immI w).toNat % 65536) m))) ∧ quiet t)) ∧
    (∀ m, fld w 6 0 = 0x23 → storeBytes (fld w 14 12) = some m → (a + immS w).toNat % m = 0 →
      0x10000 ≤ (a + immS w).toNat → (a + immS w).toNat < 0x20000 → Runs (.ccInstruction core .sound) s (fun t => CoreDone s t n next
        (fun c => { c with dmem := c.dmem.setBytes ((a + immS w).toNat % 65536) (leBytes m b.toNat) }) ∧ quiet t))

/-- Traps of a control core, its return and its external interrupt (R292; causes and saved values as RISC-V's, log 15). -/
def Obligations.CoreTraps : Prop :=
  (∀ (s : State) (core : Fin 4), coreRuns s core.val = true →
    (∀ a, coreFetch s core.val = .error a → Runs (.ccInstruction core .sound) s (fun t => CoreTrapped s t core.val 1 a)) ∧
    (∀ word len, coreFetch s core.val = .ok (none, word, len) →
      Runs (.ccInstruction core .sound) s (fun t => CoreTrapped s t core.val 2 (BitVec.ofNat 32 word))) ∧
    (∀ len, coreFetch s core.val = .ok (some 0x00000073, 0x00000073, len) →
      Runs (.ccInstruction core .sound) s (fun t => CoreTrapped s t core.val 11 0)) ∧
    (∀ word len, coreFetch s core.val = .ok (some 0x00100073, word, len) →
      Runs (.ccInstruction core .sound) s (fun t => CoreTrapped s t core.val 3 0)) ∧
    (∀ len, coreFetch s core.val = .ok (some 0x30200073, 0x30200073, len) → Runs (.ccInstruction core .sound) s (fun t =>
      CoreDone s t core.val (getCore s core.val).mepc (fun c => { c with mie := c.mpie, mpie := true }) ∧
      t = { s with cores := t.cores, freeCtr := t.freeCtr })) ∧
    (∀ len, coreFetch s core.val = .ok (some 0x10500073, 0x10500073, len) → Runs (.ccInstruction core .sound) s (fun t =>
      (getCore t core.val).wfi = !((getCore s core.val).meie && meip s core.val) ∧
      (getCore t core.val).pc = (getCore s core.val).pc + BitVec.ofNat 32 len))) ∧
  (∀ (s : State) (core : Fin 4) (mem : CoreMemory), coreRuns s core.val = false → exec (.ccInstruction core mem) s = .next s) ∧
  (∀ (s : State) (core : Fin 4), coreRuns s core.val = true →
    (∀ r, coreFetch s core.val = .ok r → Runs (.ccInstruction core .badFetch) s (fun t =>
      CoreTrapped s t core.val 1 (getCore s core.val).pc)) ∧
    (∀ w word len k sgn, coreFetch s core.val = .ok (some w, word, len) → fld w 6 0 = 0x03 →
      loadShape (fld w 14 12) = some (k, sgn) →
      let a := (getCore s core.val).reg (fld w 19 15) + immI w
      a.toNat < 0x20000 → a.toNat % k = 0 → Runs (.ccInstruction core .badLoad) s (fun t => CoreTrapped s t core.val 5 a)) ∧
    exec (.ccInstruction core .corrected) s = exec (.ccInstruction core .sound) (transient s 4 core.val).1) ∧
  (∀ (s : State) (core : Fin 4), let c := getCore s core.val
    (c.hold = false → c.mie = true → c.meie = true → (List.lookup core.val s.intc.held).isSome = true →
      exec (.ccInterruptTaken core) s = .next (setCore s core.val { c with
        mepc := c.pc, mcause := 0x8000000B, mtval := 0, mpie := true, mie := false, pc := c.mtvec, ztimeh := none, wfi := false,
        npop := false })) ∧
    (c.hold = true ∨ c.mie = false ∨ c.meie = false ∨ List.lookup core.val s.intc.held = none →
      exec (.ccInterruptTaken core) s = .next s))

/-- The engine instructions: what each writes, and where it goes on (R294 to R297). That a condition resolved between steps counts for
the next one is the model's choice (log 85). -/
def Obligations.EngineInstructions : Prop :=
  ∀ (s : State) (core : Fin 4) (rd rs1 rs2 : BitVec 5), coreRuns s core.val = true →
    let n := core.val
    let c := getCore s n
    let quiet := fun (t : State) => t = { s with cores := t.cores, freeCtr := t.freeCtr }
    (∀ i : BitVec 6, Runs (.zsrd core rd i) s (fun t =>
      CoreDone s t n (c.pc + 4) (fun c => c.setReg rd.toNat (getScalar s n i.toNat)) ∧ quiet t) ∧
      Runs (.zswr core rs1 i) s (fun t =>
        CoreDone s t n (c.pc + 4) (fun c => { c with scalar := c.scalar.put i.toNat (c.reg rs1.toNat) }) ∧ quiet t)) ∧
    (∀ v rest, c.notify = v :: rest → Runs (.znpop core rd) s (fun t =>
      CoreDone s t n (c.pc + 4) (fun c => { c with notify := rest }.setReg rd.toNat v) ∧
      t = { s with cores := t.cores, freeCtr := t.freeCtr, intc := { s.intc with pend := t.intc.pend, level := t.intc.level } })) ∧
    (c.notify = [] → Runs (.znpop core rd) s (fun t => getCore t n = { c with
        wfi := false, npop := true, ztimeh := none, mcycle := c.mcycle + 1 + BitVec.ofNat 64 (Config.cclkExtra s.freeCtr) } ∧
      (∀ k, k ≠ n → getCore t k = getCore s k) ∧ quiet t)) ∧
    Runs (.zncnt core rd) s (fun t =>
      CoreDone s t n (c.pc + 4) (fun c => c.setReg rd.toNat (BitVec.ofNat 32 c.notify.length)) ∧ quiet t) ∧
    (∀ i : BitVec 4, Runs (.zcnt core rs1 i) s (fun t => CoreDone s t n (c.pc + 4) (fun c => { c with
      cnt := c.cnt.put i.toNat (satAdd (Tab.get 0 c.cnt i.toNat) (c.reg rs1.toNat).toNat) }) ∧ quiet t)) ∧
    (let code := (c.reg rs1.toNat).toNat
     (code = 0x1801 ∨ (0x1880 ≤ code ∧ code ≤ 0x18FF) → Runs (.zevt core rs1 rs2) s (fun t =>
        CoreDone s t n (c.pc + 4) id ∧ seqOf t (0x18 + n) = seqOf s (0x18 + n) + 1 ∧
        ((waitingRecords s (0x18 + n)).length < 8 → waitingRecords t (0x18 + n) = waitingRecords s (0x18 + n) ++
          [{ source := BitVec.ofNat 8 (0x18 + n), seq := seqOf s (0x18 + n), time := s.clock.ts, code := BitVec.ofNat 16 code,
             payload := (c.reg rs2.toNat).setWidth 24 }]))) ∧
     (code ≠ 0x1801 → code < 0x1880 ∨ 0x18FF < code →
        Runs (.zevt core rs1 rs2) s (fun t => ∃ v, CoreTrapped s t n 2 v))) ∧
    (let v := (c.reg rs1.toNat).toNat
     (v % 256 ≠ 0 → v < 512 → s.psc.stepOn = false ∨ (s.psc.committed = false ∧ s.rlp.range = none) →
        List.lookup (v % 256) s.psc.conds = none → Runs (.zres core rs1) s (fun t => (getCore t n).pc = c.pc + 4 ∧
          (getCore t n).minstret = c.minstret + 1 ∧ (getCore t n).x = c.x ∧ (∀ k, k ≠ n → getCore t k = getCore s k) ∧
          List.lookup (v % 256) t.psc.conds = some (decide (256 ≤ v)))) ∧
     (v % 256 = 0 ∨ 512 ≤ v → Runs (.zres core rs1) s (fun t => ∃ w, CoreTrapped s t n 2 w)))

/-- What a release of a range of tensors does: the bound tag loses one pending token and the binding is cleared; a clear binding changes
nothing and raises `version_release_unheld`. -/
def Released (s t : State) (binding first last : Nat) : Prop :=
  (∀ x, first ≤ x → x ≤ last → ∀ tag, List.lookup binding (getVer s x).bound = some tag →
    List.lookup binding (getVer t x).bound = none ∧
    (getTag (getVer t x) tag).pending = (getTag (getVer s x) tag).pending - 1 ∧
    (∀ g, g ≠ tag → getTag (getVer t x) g = getTag (getVer s x) g) ∧
    (∀ b, b ≠ binding → List.lookup b (getVer t x).bound = List.lookup b (getVer s x).bound) ∧
    (getTag (getVer t x) tag).tokens = (getTag (getVer s x) tag).tokens ∧ (getVer t x).cur = (getVer s x).cur) ∧
  (∀ x, (first ≤ x → x ≤ last → List.lookup binding (getVer s x).bound = none) → getVer t x = getVer s x) ∧
  seqOf t 2 = seqOf s 2 + BitVec.ofNat 32
    ((tensorRange first last).filter (fun x => (List.lookup binding (getVer s x).bound).isNone)).length

/-- R129, by register write and by control slot; a tensor with operations that wait for the step boundary queues the release behind
them (R133; that a release waits behind a parked acquire is log 49). -/
def Obligations.VersionRelease : Prop :=
  (∀ (s : State) (req : Req) (b : BitVec 4) (f l : BitVec 10), s.boot.stage ≠ 0 → f ≤ l →
    (∀ x, f.toNat ≤ x → x ≤ l.toNat → (getVer s x).waiting = []) →
    Runs (.versionRelease req b f l) s (fun t => Released s t b.toNat f.toNat l.toNat ∧
      t = { dropHold s req with
        vers := t.vers, evt := t.evt, intc := t.intc, ras := t.ras, life := t.life, freeCtr := t.freeCtr })) ∧
  (∀ (s : State) (b f l : Nat), (∀ x, f ≤ x → x ≤ l → (getVer s x).waiting = []) →
    Released s (versionSlot s true b f l) b f l) ∧
  (∀ (s : State) (req : Req) (b : BitVec 4) (f : BitVec 10), s.boot.stage ≠ 0 → (getVer s f.toNat).waiting = [] →
    List.lookup b.toNat (getVer s f.toNat).bound = none →
    exec (.versionRelease req b f f) s = .next (raiseOpen (dropHold s req) 2 Ev.versionReleaseUnheld)) ∧
  (∀ (s : State) (req : Req) (b : BitVec 4) (f : BitVec 10), s.boot.stage ≠ 0 → (getVer s f.toNat).waiting ≠ [] →
    exec (.versionRelease req b f f) s = .next (setVer (dropHold s req) f.toNat { getVer s f.toNat with
      waiting := (getVer s f.toNat).waiting ++ [(true, b.toNat)] }))

/-- An acquire, by register write and by control slot, binds the current tag of each tensor and adds one pending token to it, after
releasing what the binding held, and changes nothing else of it (R128); an acquire past the token limit leaves the binding clear and
raises `version_token_limit`; of a tensor without older versions whose update has issued or begun it waits for the boundary (R133,
log 49); a range that ends before it starts is reserved (R13, R375). -/
def Obligations.VersionAcquire : Prop :=
  (∀ (s : State) (req : Req) (b : BitVec 4) (f l : BitVec 10), s.boot.stage ≠ 0 → f ≤ l →
    (∀ x, f.toNat ≤ x → x ≤ l.toNat → (getVer s x).waiting = [] ∧ acquireWaits s x = false ∧
      ((getTag (getVer s x) (getVer s x).cur).tokens : Int) + (getTag (getVer s x) (getVer s x).cur).pending < 65535) →
    Runs (.versionAcquire req b f l) s (fun t =>
      (∀ x, f.toNat ≤ x → x ≤ l.toNat → List.lookup b.toNat (getVer t x).bound = some (getVer s x).cur ∧
        (getVer t x).cur = (getVer s x).cur ∧
        (List.lookup b.toNat (getVer s x).bound ≠ some (getVer s x).cur →
          (getTag (getVer t x) (getVer s x).cur).pending = (getTag (getVer s x) (getVer s x).cur).pending + 1) ∧
        (List.lookup b.toNat (getVer s x).bound = some (getVer s x).cur →
          (getTag (getVer t x) (getVer s x).cur).pending = (getTag (getVer s x) (getVer s x).cur).pending)) ∧
      (∀ x, f.toNat ≤ x → x ≤ l.toNat → (∀ k, k ≠ b.toNat → List.lookup k (getVer t x).bound = List.lookup k (getVer s x).bound) ∧
        (∀ g, g ≠ (getVer s x).cur → List.lookup b.toNat (getVer s x).bound = some g →
          (getTag (getVer t x) g).pending = (getTag (getVer s x) g).pending - 1) ∧
        (∀ g, g ≠ (getVer s x).cur → List.lookup b.toNat (getVer s x).bound ≠ some g →
          getTag (getVer t x) g = getTag (getVer s x) g) ∧
        (∀ g, (getTag (getVer t x) g).tokens = (getTag (getVer s x) g).tokens)) ∧
      (∀ x, x < f.toNat ∨ l.toNat < x → getVer t x = getVer s x) ∧ t = { dropHold s req with vers := t.vers } ∧
      (∀ x, getVer (versionSlot s false b.toNat f.toNat l.toNat) x = getVer t x))) ∧
  (∀ (s : State) (req : Req) (b : BitVec 4) (f : BitVec 10), s.boot.stage ≠ 0 → (getVer s f.toNat).waiting = [] →
    acquireWaits s f.toNat = false →
    (let v := dropBinding (getVer s f.toNat) b.toNat
     65535 < ((getTag v v.cur).tokens : Int) + (getTag v v.cur).pending + 1 → exec (.versionAcquire req b f f) s =
      .next (raiseOpen (setVer (dropHold s req) f.toNat v) 2 Ev.versionTokenLimit) ∧
      ((∀ tag, List.lookup b.toNat (getVer s f.toNat).bound = some tag → v = { getVer s f.toNat with
          tags := (getVer s f.toNat).tags.upd TagState.reset tag (fun x => { x with pending := x.pending - 1 }),
          bound := (getVer s f.toNat).bound.filter (fun kv => kv.1 != b.toNat) }) ∧
        (List.lookup b.toNat (getVer s f.toNat).bound = none → v = getVer s f.toNat)))) ∧
  (∀ (s : State) (req : Req) (b : BitVec 4) (f : BitVec 10), s.boot.stage ≠ 0 → (getVer s f.toNat).waiting = [] →
    verStash s f.toNat = 0 → (getVer s f.toNat).updating = true ∨ (∃ sl, sl ∈ s.psc.accepted ∧ sl.updates s f.toNat = true) →
    exec (.versionAcquire req b f f) s =
      .next (setVer (dropHold s req) f.toNat { getVer s f.toNat with waiting := [(false, b.toNat)] })) ∧
  (∀ (s : State) (req : Req) (b : BitVec 4) (f l : BitVec 10), s.boot.stage ≠ 0 → l < f →
    exec (.versionAcquire req b f l) s = .next (reservedWrite (dropHold s req) req 0x040014) ∧
    exec (.versionRelease req b f l) s = .next (reservedWrite (dropHold s req) req 0x040014))

/-- Setting `run`: refused outside stage 0xA and after an audit failure, the attempt limit or a lost outcome; else a step starts
(R18, R199, R311, R323, R367), with a load ramp before its first bundle (R357), which starts at once where the acknowledge is high already
(log 27) and sees its registers as of the last bundle boundary (log 108). An abort that waits for no operation any more is done first
(log 88). -/
def Obligations.StepStart : Prop :=
  (∀ (s : State) (req : Req), s.boot.stage ≠ 0 → s.psc.abortDue = true → s.psc.stepOn = true → opsSettled s = true →
    exec (.runSet req) s = .next (runSet (abortStep (dropHold s req)))) ∧
  ∀ (s : State) (req : Req), s.boot.stage ≠ 0 → s.psc.abortDue = false →
    (s.psc.run = true → exec (.runSet req) s = .next (dropHold s req)) ∧
    (s.psc.run = false → s.boot.stage ≠ 0xA ∨ s.ras.audit = true ∨ s.psc.limited = true ∨ s.ras.lostWait = true →
      exec (.runSet req) s = .next (raise (dropHold s req) 0 Ev.startNotReady (BitVec.ofNat 24 (s.boot.stage.toNat * 2 ^ 20)))) ∧
    (s.psc.run = false → s.boot.stage = 0xA → s.ras.audit = false → s.psc.limited = false → s.ras.lostWait = false →
      Runs (.runSet req) s (fun t => t.psc.run = true ∧ t.psc.stepOn = true ∧ t.psc.repeats = false ∧
        t.psc.step = s.psc.step ∧ t.psc.attempt = s.psc.attempt ∧ t.gov.loc = s.gov.carry ∧ t.gov.calib = [] ∧
        (s.psc.repeats = true → t.psc.sample = s.psc.sample ∧ t.hostMem = s.hostMem) ∧
        (s.psc.repeats = false → t.psc.sample = { mem := s.hostMem, phase := s.rlp.phase, regs := s.regs.live }) ∧
        getMbx t 0 = { getMbx s 0 with ready := false } ∧ (∀ n, n ≠ 0 → getMbx t n = getMbx s n) ∧
        ((aclkReg s 0x2A0000).getLsbD 0 = false ∨ s.pins.rampAck = true → t.pwr.r = (aclkReg s 0x2A0004).toNat / 65536 % 16 ∧ t.pwr.waiting = false) ∧
        ((aclkReg s 0x2A0000).getLsbD 0 = true → s.pins.rampAck = false → t.pins.rampReq = true ∧ t.pwr.waiting = true) ∧
        t.boot = s.boot ∧ t.regs = s.regs ∧ t.cores = s.cores ∧ t.img = s.img ∧ t.sump = s.sump ∧ t.clock = s.clock))

/-- Resolving a cond (R199, R205, R206, R375): once; the passages that carry it drop, become ordinary or are undone. That a condition
resolved between steps counts for the next one is the model's choice (log 85). -/
def Obligations.ResolveCond : Prop :=
  ∀ (s : State) (req : Req) (c : BitVec 8) (o : Bool), s.boot.stage ≠ 0 →
    (c = 0 → exec (.pscResolve req c o) s = .next (reservedWrite (dropHold s req) req 0x040010)) ∧
    (c ≠ 0 → List.lookup c.toNat s.psc.conds = some o → exec (.pscResolve req c o) s = .next (dropHold s req)) ∧
    (c ≠ 0 → List.lookup c.toNat s.psc.conds = some (!o) →
      exec (.pscResolve req c o) s = .next (raiseOpen (dropHold s req) 2 Ev.resolveConflict)) ∧
    (c ≠ 0 → List.lookup c.toNat s.psc.conds = none → s.psc.stepOn = false → exec (.pscResolve req c o) s =
      .next { dropHold s req with psc := { s.psc with conds := s.psc.conds.put c.toNat o } }) ∧
    (c ≠ 0 → List.lookup c.toNat s.psc.conds = none → s.psc.stepOn = true → s.psc.committed = false → s.rlp.range = none →
      Runs (.pscResolve req c o) s (fun t => List.lookup c.toNat t.psc.conds = some o ∧
        (∀ d, d ≠ c.toNat → List.lookup d t.psc.conds = List.lookup d s.psc.conds) ∧
        (∀ p, p < min 4096 (ptCount s) → (pentry s p).valid = true → (pentry s p).cond = c.toNat →
          (o = false → (getPassage s p).status = .notStarted → (getPassage t p).status = .resolvedFalse) ∧
          (o = false → (getPassage s p).status ≠ .notStarted → (getPassage s p).spec = true → (getPassage t p).status = .undoing) ∧
          (o = true → (getPassage s p).status ≠ .notStarted → (getPassage s p).spec = true →
            (getPassage t p).spec = false ∧ (getPassage t p).status = (getPassage s p).status ∧
            ∀ k, k ∈ shadowKeys s p → (groupOf t k).shadow = false)) ∧
        t.psc.step = s.psc.step ∧ t.psc.stepOn = true ∧ t.psc.issued = s.psc.issued ∧ t.regs = s.regs ∧
        t.cores = s.cores ∧ t.img = s.img ∧ t.vers = s.vers ∧
        (o = false ∨ (∀ p, (getPassage s p).nonfin = []) → t.hostMem = s.hostMem ∧ t.gov = s.gov)))

/-- Pre-emption (R335 to R337): when it is granted, when it is refused; the passage suspended and the other started once it has no
operation left and no slot but what waits for chunks which its stop keeps (log 9), and its resumption, with every chunk word that was put by
issued again and the next bundle waiting for reloads and rows. -/
def Obligations.Preempt : Prop :=
  (∀ (s : State) (req : Req) (q : BitVec 12), s.boot.stage ≠ 0 →
    (∀ p, s.psc.issuing = some p → s.psc.suspended = none → s.psc.preempter = none → (getPassage s p).spec = false →
      (getPassage s p).status = .running → ready (refresh (dropHold s req)) q.toNat = true → preemptMoves s p q.toNat = false →
      Runs (.pscPreempt req q) s (fun t => t.psc.preempter = some q.toNat ∧ t.psc.issuing = some p ∧ t.psc.suspended = none ∧
        (∀ a, a ∈ drivenArrays s p → (getArray t a).stopped = true) ∧
        (∀ a, a ∉ drivenArrays s p → getArray t a = getArray s a) ∧
        t = { dropHold s req with psc := { s.psc with preempter := some q.toNat, ops := t.psc.ops }, sump := t.sump })) ∧
    (s.psc.issuing = none ∨ s.psc.suspended ≠ none ∨ s.psc.preempter ≠ none ∨ ready (refresh (dropHold s req)) q.toNat = false ∨
      (∃ p, s.psc.issuing = some p ∧ ((getPassage s p).spec = true ∨ (getPassage s p).status ≠ .running ∨
        preemptMoves s p q.toNat = true)) →
      exec (.pscPreempt req q) s = .next (raise (dropHold s req) 6 Ev.preemptRefused (pack [(12, q.toNat)])))) ∧
  (∀ (s : State) (p q : Nat), s.psc.issuing = some p → s.psc.preempter = some q → s.psc.suspended = none →
    s.psc.ops.any (fun o => o.passage == p) = false → s.psc.accepted = [] ∨ headWaits s = true → p ≠ q →
    Runs .passageSuspend s (fun t => t.psc.suspended = some p ∧ t.psc.issuing = some q ∧ (getPassage t p).status = .suspended ∧
      (getPassage t p).bundle = (getPassage s p).bundle ∧ (getPassage t p).ptr = (getPassage s p).ptr ∧
      (getPassage t q).status = .running ∧ t.ras.suspAt = (getPassage s p).bundle ∧ t.hostMem = s.hostMem ∧
      (getPassage t p).rest = s.psc.accepted ∧ t.psc.accepted = [] ∧
      t.regs = { s.regs with seen := t.regs.seen } ∧
      t.vers = s.vers ∧ t.cores = s.cores ∧ t.sump.groups = s.sump.groups ∧ t.sump.totals = s.sump.totals)) ∧
  (∀ (s : State) (p q v : Nat), s.psc.suspended = some p → s.psc.preempter = some q → s.psc.issuing = none → s.img.swapTo = none →
    passageDone s q = true → resolveVariant s (pentry s p) = some v →
    (v ≠ s.img.variant → exec .passageResume s = .next { s with img := { s.img with swapTo := some v, staged := some v } }) ∧
    (v = s.img.variant → Runs .passageResume s (fun t => t.psc.suspended = none ∧ t.psc.preempter = none ∧ t.psc.issuing = some p ∧
      (getPassage t p).status = .running ∧ (getPassage t p).ptr = (getPassage s p).ptr ∧ t.ras.suspAt = 0 ∧
      t.psc.accepted = (getPassage s p).rest ∧
      s.clock.aclk ≤ (getPassage t p).loadTill ∧ (getPassage t p).loadTill ≤ (getPassage t p).rowTill ∧
      (∀ a, a < s.silicon.cls.arrays → (getArray t a).susp = Susp.none ∧
        ∀ c, c ∈ (getArray s a).susp.saved → { c with stage := .latched } ∈ t.sump.chunks) ∧
      seqOf t 6 = seqOf s 6 + 1 ∧ t.hostMem = s.hostMem ∧ t.regs = s.regs ∧ t.vers = s.vers ∧ t.img = s.img)))

/-- Governor state written through its window: refused while `run` is 1; else the fields of the word change, reserved bits are reported
in both cases (R12, R13, R156, R376). -/
def Obligations.GovernorState : Prop :=
  ∀ (s : State) (req : Req) (w : Fin 4) (v : Word), s.boot.stage ≠ 0 →
    let l := (liveReg s 0x050040).toNat % 1024
    let x := getLayer s l
    let n := v.toNat
    let put := fun (y : Layer) (bad : Bool) =>
      exec (.govStateWrite req w v) s = .next (setLayer (if bad then reservedWrite (dropHold s req) req (0x050044 + 4 * w.val)
        else dropHold s req) l y)
    (s.psc.run = true → exec (.govStateWrite req w v) s = .next (raiseOpen
      (if (w = 0 ∧ n / 512 % 128 ≠ 0) ∨ (w = 1 ∧ n / 2 ^ 24 ≠ 0) ∨ (w = 3 ∧ n / 65536 ≠ 0)
        then reservedWrite (dropHold s req) req (0x050044 + 4 * w.val) else dropHold s req) 3 Ev.govStateBusy)) ∧
    (s.psc.run = false → w = 0 → put { x with
      fresh := false, rung := n % 256, lock := v.getLsbD 8, since := n / 65536 } (decide (n / 512 % 128 ≠ 0))) ∧
    (s.psc.run = false → w = 1 → put { x with up := [n % 256, n / 256 % 256, n / 65536 % 256] } (decide (n / 2 ^ 24 ≠ 0))) ∧
    (s.psc.run = false → w = 2 → put { x with down := [n % 65536, n / 65536, x.down.getD 2 0] } false) ∧
    (s.psc.run = false → w = 3 → put { x with down := [x.down.getD 0 0, x.down.getD 1 0, n % 65536] } (decide (n / 65536 ≠ 0)))

/-- Selection: the ready passage of the largest priority that has been ready longest starts, speculatively where its cond is
unresolved, after a variant swap where its variant is not in force (R200, R204), and spare arrays take their places (R77, which
boundary that is: log 37); its first bundle is then fetched (log 2). The swap itself, once no slot of the last bundle waits and what it
changes is quiet (R174, R181; what it clears is log 86). -/
def Obligations.PassageSelection : Prop :=
  (∀ (s : State) (p : Nat), s.psc.abortDue = false → s.psc.run = true → s.psc.stopIssue = false → s.psc.issuing = none → s.psc.suspended = none →
    s.img.swapTo = none → selectPassage (refresh s) = some p →
    ready (refresh s) p = true ∧ (∀ q, q < min 4096 (ptCount s) → ready (refresh s) q = true → better (refresh s) q p = false) ∧
    Runs .passageSelect s (fun t => t.psc.issuing = some p ∧ (getPassage t p).status = .running ∧
      (getPassage t p).ptr = (pentry s p).bundles ∧ (getPassage t p).bundle = 0 ∧ t.psc.lastBundle = none ∧
      (getPassage t p).fetchTill = s.clock.aclk + Config.fetchTime s.clock.aclk ∧
      (getPassage t p).spec = ((pentry s p).cond != 0 && (List.lookup (pentry s p).cond s.psc.conds).isNone) ∧
      (∀ v, resolveVariant s (pentry s p) = some v → v ≠ s.img.variant → t.img = { s.img with swapTo := some v, staged := some v }) ∧
      (resolveVariant s (pentry s p) = some s.img.variant → t.img = { s.img with staged := t.img.staged }) ∧
      t.psc.issued = s.psc.issued ∧ t.sump = s.sump ∧ t.hostMem = s.hostMem ∧ t.regs = { s.regs with seen := t.regs.seen } ∧
      t.ras.subPend = [] ∧ t.cores = s.cores ∧
      t.vers = s.vers ∧ t.clock = s.clock)) ∧
  (∀ s : State, s.psc.abortDue = false → s.psc.run = false ∨ s.psc.stopIssue = true ∨ s.psc.issuing ≠ none ∨ s.psc.suspended ≠ none ∨ s.img.swapTo ≠ none →
    exec .passageSelect s = .next s) ∧
  (∀ (s : State) (v : Nat), s.img.swapTo = some v → s.psc.run = true → s.psc.accepted = [] → swapClear s v = true →
    variantUsesFailed s v = false →
    Runs .variantSwap s (fun t => t.img = { s.img with variant := v, swapTo := none, staged := t.img.staged } ∧
      (∀ a, a < s.silicon.cls.arrays → castChanges s v a = true → (getArray t a).active = none ∧ (getArray t a).loading = none ∧
        (getArray t a).retained = none ∧ (getArray t a).feeder = []) ∧
      (∀ a, castChanges s v a = false → getArray t a = getArray s a) ∧
      (s.isZ64 = false → t.sump.groups = s.sump.groups ∧ t.sump.totals = s.sump.totals) ∧
      t = { s with
        img := t.img, staging := t.staging, ras := { s.ras with units := t.ras.units },
        sump := { s.sump with arrays := t.sump.arrays, groups := t.sump.groups, totals := t.sump.totals } })) ∧
  (∀ (s : State) (v : Nat), s.img.swapTo = some v →
    s.psc.run = false ∨ s.psc.accepted ≠ [] ∨ swapClear s v = false ∨ variantUsesFailed s v = true → exec .variantSwap s = .next s)

/-- One ACLK of the issue unit: power holds issue; a GAP holds it, under one cause, which is open (log 18); a bundle that has not been
fetched is waited for, how long is open (log 2); after more than 4,096 ACLK without issue and without the start of a ramp (log 27) a load
ramp comes first, with the handshake where one is enabled and the acknowledge low, else at once, and the bundle then issues unless the ACLK
is a bubble; a bundle that is not as R189 sets out sticks the passage; a bundle with a held slot stays and its cause is counted, first that
of a forced spare self-test; a bundle none of whose slots is held issues whole, and the program goes on behind it (R193, R194, R209, R210,
R341, R356, R357); the ACLK domain then sees the registers as they stand (R10, log 108). -/
def Obligations.BundleIssueUnit : Prop :=
  ∀ (s : State) (p : Nat), s.psc.abortDue = false → s.psc.issuing = some p → mayIssue s p = true →
    let x := getPassage s p
    let b := bundleAt s x.ptr
    let held := fun (c : Nat) (t : State) => t.psc.issued = s.psc.issued ∧ t.clock.aclk = s.clock.aclk + 1 ∧ t.psc.accepted = [] ∧
      Tab.get 0 t.psc.stalls c = satAdd (Tab.get 0 s.psc.stalls c) 1 ∧ (getPassage t p).ptr = x.ptr ∧ t.hostMem = s.hostMem
    let issues := fun (t : State) =>
      t.psc.issued = satAdd s.psc.issued 1 ∧ t.psc.lastIssue = s.clock.aclk ∧ t.clock.aclk = s.clock.aclk + 1 ∧
      (getPassage t p).ptr = x.ptr + b.size ∧ (getPassage t p).bundle = x.bundle + 1 ∧
      (getPassage t p).status = (if b.last then .ended else .running) ∧ t.psc.issuing = (if b.last then none else some p) ∧
      (∀ y, y ∈ t.psc.accepted → ∃ z, z ∈ bundleSlots b p (s.psc.nextOp + 1) ∧ y.index = z.index ∧ y.word = z.word ∧
        y.passage = z.passage ∧ y.op = z.op) ∧
      t.psc.stalls = s.psc.stalls ∧ t.sump = s.sump ∧ t.hostMem = s.hostMem ∧ t.regs = { s.regs with seen := t.regs.seen } ∧
      aclkReg t 0x2A0000 = liveReg s 0x2A0000 ∧ aclkReg t 0x2A0004 = liveReg s 0x2A0004
    let ramp : Pwr := { s.pwr with r := (aclkReg s 0x2A0004).toNat / 65536 % 16, waiting := false, began := s.clock.aclk }
    (powerHolds s = true → Runs .bundleIssue s (fun t => t.psc.issued = s.psc.issued ∧ t.clock.aclk = s.clock.aclk + 1 ∧
      Tab.get 0 t.psc.stalls 14 = satAdd (Tab.get 0 s.psc.stalls 14) 1 ∧ t.psc.accepted = [] ∧
      (∀ c, c ≠ 14 → Tab.get 0 t.psc.stalls c = Tab.get 0 s.psc.stalls c) ∧ t.sump = s.sump ∧ t.hostMem = s.hostMem)) ∧
    (powerHolds s = false → s.img.swapTo = none → x.stuck = false → x.loadTill ≤ s.clock.aclk → x.rowTill ≤ s.clock.aclk →
      s.clock.aclk < x.gap → Runs .bundleIssue s (fun t => ∃ c, c < 16 ∧ held c t ∧ t.sump = s.sump ∧
        ∀ k, k ≠ c → Tab.get 0 t.psc.stalls k = Tab.get 0 s.psc.stalls k)) ∧
    (powerHolds s = false → s.img.swapTo = none → x.stuck = false → x.loadTill ≤ s.clock.aclk → x.rowTill ≤ s.clock.aclk →
      x.gap ≤ s.clock.aclk → bundleWaits s x = true → Runs .bundleIssue s (fun t =>
        t.psc.issued = s.psc.issued ∧ t.psc.accepted = [] ∧ (getPassage t p).ptr = x.ptr ∧
        Tab.get 0 t.psc.stalls 9 = satAdd (Tab.get 0 s.psc.stalls 9) 1 ∧
        (∀ c, c ≠ 9 → Tab.get 0 t.psc.stalls c = Tab.get 0 s.psc.stalls c) ∧ t.sump = s.sump ∧ t.hostMem = s.hostMem)) ∧
    (powerHolds s = false → s.img.swapTo = none → x.stuck = false → x.loadTill ≤ s.clock.aclk → x.rowTill ≤ s.clock.aclk →
      x.gap ≤ s.clock.aclk → bundleWaits s x = false → bundleReserved s b = false → (mapAddr s x.ptr b.size).isSome = true →
      (bundleOk s b (pentry s p) (x.ptr - (pentry s p).bundles) = false → Runs .bundleIssue s (fun t =>
        (getPassage t p).stuck = true ∧ t.psc.issued = s.psc.issued ∧ t.psc.accepted = [])) ∧
      (∀ u c, bundleOk s b (pentry s p) (x.ptr - (pentry s p).bundles) = true →
        bundleHold s (bundleSlots b p (s.psc.nextOp + 1)) = (u, some c) → Runs .bundleIssue s (held c)) ∧
      (∀ u, bundleOk s b (pentry s p) (x.ptr - (pentry s p).bundles) = true →
        bundleHold s (bundleSlots b p (s.psc.nextOp + 1)) = (u, none) → (b.barrier = true → barrierHold u p = none) →
        (s.clock.aclk - max s.psc.lastIssue s.pwr.began ≤ 4096 → Runs .bundleIssue s issues) ∧
        (4096 < s.clock.aclk - max s.psc.lastIssue s.pwr.began →
          ((aclkReg s 0x2A0000).getLsbD 0 = true → s.pins.rampAck = false → Runs .bundleIssue s (fun t => held 14 t ∧
            t.pwr = { s.pwr with waiting := true } ∧ t.pins = { s.pins with rampReq := true })) ∧
          ((aclkReg s 0x2A0000).getLsbD 0 = false ∨ s.pins.rampAck = true →
            (isBubble { s with pwr := ramp } = true → Runs .bundleIssue s (fun t => held 14 t ∧ t.pwr = ramp ∧ t.pins = { s.pins with rampReq := false })) ∧
            (isBubble { s with pwr := ramp } = false →
              Runs .bundleIssue s (fun t => issues t ∧ t.pwr = ramp ∧ t.pins = { s.pins with rampReq := false })))))) ∧
    (∀ (sl : Slot) (slots : List Slot), sl ∈ slots → sl.index < 64 → sl.opcode = 1 → loadHold s sl = some 15 → (bundleHold s slots).2 = some 15)

/-- Control slots without an operation: NOP, GAP, NOTIFY (R187, R191, R297). -/
def Obligations.ControlSlots : Prop :=
  ∀ (s : State) (sl : Slot) (rest : List Slot), s.psc.accepted = sl :: rest →
    (∀ i : BitVec 7, sl.index = i.toNat → fld sl.word.toNat 63 60 = 0 →
      exec (.nop i) s = .next { s with psc := { s.psc with accepted := rest } }) ∧
    (sl.index = 98 → fld sl.word.toNat 63 60 = 1 → exec .gap s =
      .next (setPassage { s with psc := { s.psc with accepted := rest } } sl.passage
        { getPassage s sl.passage with gap := s.psc.lastIssue + sl.word.toNat % 65536 })) ∧
    (sl.index = 98 → fld sl.word.toNat 63 60 = 3 → Runs .notify s (fun t =>
      let n := sl.word.toNat / 2 ^ 58 % 4
      getCore t n = { getCore s n with notify := (getCore s n).notify ++ [BitVec.ofNat 32 sl.word.toNat] } ∧
      (∀ k, k ≠ n → getCore t k = getCore s k) ∧
      t = { s with
        psc := { s.psc with accepted := rest }, cores := t.cores,
        intc := { s.intc with pend := t.intc.pend, level := t.intc.level } }))

/-- What the step boundary does: the next step counts, with nothing of this one left in scheduler, sump, queues and staging; rungs
that were pending are in force; an updated tensor has its next version; the lock file is sampled; of every quantity the units balance,
or the audit has failed, but for those that a retirement excused; an image whose swap waited is in force (R21, R93, R132, R157, R158,
R180, R211, R279, R339). -/
def BoundaryOf (s t : State) : Prop :=
  t.psc.step = s.psc.step + 1 ∧ t.psc.attempt = 0 ∧ t.psc.committed = false ∧ t.psc.repeats = false ∧ t.psc.stepOn = false ∧
  t.psc.run = false ∧ t.psc.ops = [] ∧ t.psc.accepted = [] ∧ t.psc.passages = [] ∧ t.psc.conds = [] ∧ t.psc.issuing = none ∧
  t.sump.groups = [] ∧ t.sump.totals = [] ∧ t.sump.chunks = [] ∧ t.gov.outlier = [] ∧
  (∀ i, i < 256 → Tab.get 0 t.gov.lockSmp i = liveReg s (0x051000 + 4 * i)) ∧
  (∀ k, (getVe t k).ftq = []) ∧ t.rope.hops = [] ∧ t.rlp.fbuf = [] ∧ t.rlp.phase = s.rlp.phase ∧
  (∀ i, i < 18 → Tab.get 0 t.life.stallBase i = stallNow s i) ∧
  t.ras.updFail = none ∧ t.ras.gatherBad = false ∧ t.ras.lostWait = false ∧ t.ras.excused = [] ∧
  ((∀ kv, kv ∈ s.vers → kv.2.waiting = []) → ∀ x,
    ((getVer s x).updating = false → getVer t x = getVer s x) ∧
    ((getVer s x).updating = true → (getVer t x).cur = ((getVer s x).cur + 1) % 8 ∧ (getVer t x).updating = false ∧
      (getTag (getVer t x) (getVer t x).cur).live = true ∧ (getTag (getVer t x) (getVer t x).cur).buffer = nextBuffer s x)) ∧
  (s.img.swapPending = true → ∀ x, s.img.shadow = some x → t.img.live = some x ∧ t.img.variant = 0 ∧ t.img.shadow = none) ∧
  (s.img.swapPending = false → t.img = { s.img with swapTo := none, staged := none } ∧
    (∀ l, getLayer t l = match (getLayer s l).pending with
      | some r => { getLayer s l with rung := r, pending := none }
      | none => getLayer s l) ∧
    t.staging.bytes = [] ∧ (∀ kv, kv ∈ t.staging.alloc → isFrameSlot s kv.1 = true) ∧
    (t.ras.audit = false → ∀ q, q < 8 → q ∉ s.ras.excused → auditOk t q = true))

/-- What the commit leaves before the boundary: the same step, committed, with the error-feedback phase turned, the local statistics and
their carry empty, mailbox 0 posted, and every pending count in its tag's tokens (R20, R131, R140, R252, R311). -/
def CommitOf (s t : State) : Prop :=
  t.psc.committed = true ∧ t.psc.step = s.psc.step ∧ t.psc.attempt = s.psc.attempt ∧ t.psc.stepOn = s.psc.stepOn ∧
  t.rlp.phase = !s.rlp.phase ∧ t.gov.loc = [] ∧ t.gov.carry = [] ∧ t.ras.lostWait = false ∧
  getMbx t 0 = { value := BitVec.ofNat 64 (s.psc.step.toNat + s.psc.attempt.toNat * 2 ^ 40), seq := (getMbx s 0).seq + 1, ready := true } ∧
  (∀ n, n ≠ 0 → getMbx t n = getMbx s n) ∧
  (∀ x, (getVer t x).bound = (getVer s x).bound ∧ (getVer t x).cur = (getVer s x).cur ∧
    ∀ g, (getTag (getVer t x) g).tokens = ((getTag (getVer s x) g).tokens + (getTag (getVer s x) g).pending).toNat ∧
      (getTag (getVer t x) g).pending = 0) ∧
  t.sump.groups = s.sump.groups ∧ t.sump.totals = s.sump.totals ∧ t.sump.chunks = s.sump.chunks ∧ t.regs = s.regs ∧ t.cores = s.cores ∧
  t.img.live = s.img.live ∧ t.img.variant = s.img.variant
/-- A commit, and the boundary at once where every passage has ended, `ends` among them, and every gather is complete (R21). -/
def Commits (s : State) (ends : Option Nat) (t : State) : Prop :=
  ((∃ q, q < min 4096 (ptCount s) ∧ (pentry s q).valid = true ∧ ends ≠ some q ∧ passageDone s q = false ∧
      ¬ ((getPassage s q).status = .notStarted ∧ (pentry s q).cond ≠ 0 ∧ condOf s (pentry s q).cond = some false)) → CommitOf s t) ∧
  ((∀ q, q < min 4096 (ptCount s) → (pentry s q).valid = true → ends ≠ some q → passageDone s q = true) →
    s.rlp.groups.all (gatherDone s) = true → gatherWrites s = false → ∃ u, CommitOf s u ∧ BoundaryOf u t)

/-- A passage with an unfinished operation, bursts that a stop has cut included, does not complete (R193, R200). The end of a passage and
of an undo, while neither the commit nor the boundary can follow (R200, R206, R207), and the end of the
last passage of a committed step, with which the boundary comes (R21); there a delayed stream whose format stays takes its next scale
(R143), and a quantity whose units do not balance fails the audit, or is only reported (R339). The commit, with the last fragment of a
commit outcome or with the end of the last passage that is no UPD passage, and the boundary with it where there is none (R19 to R21); the
governor's decision on a layer (R158). That no token is left of a sum below zero is log 100. -/
def Obligations.PassageEnds : Prop :=
  (∀ (s : State) (p : BitVec 12), hasOps s p.toNat = true ∨ savedOps s p.toNat ≠ [] → exec (.passageComplete p) s = .next s) ∧
  (∀ (s : State) (p : BitVec 12), hasOps s p.toNat = false → s.rlp.range = none → s.psc.committed = false →
    let x := getPassage s p.toNat
    (x.status = .ended → x.spec = false → savedOps s p.toNat = [] → Runs (.passageComplete p) s (fun t =>
      (getPassage t p.toNat).status = .completed ∧ t.psc.step = s.psc.step ∧ t.psc.stepOn = s.psc.stepOn ∧
      t.sump = { s.sump with owners := s.sump.owners.filter (fun o => o.2 != p.toNat) } ∧ t.hostMem = s.hostMem ∧
      t.vers = s.vers ∧ t.regs = s.regs ∧ t.cores = s.cores ∧ t.img = s.img)) ∧
    (x.status = .undoing → Runs (.passageUndoComplete p) s (fun t =>
      (getPassage t p.toNat).status = .resolvedFalse ∧ (getPassage t p.toNat).spec = false ∧ t.psc.undos = s.psc.undos + 1 ∧
      t.psc.issuing = (if s.psc.issuing = some p.toNat then none else s.psc.issuing) ∧
      (∀ k, k ∈ shadowKeys s p.toNat →
        (s.isZ64 = false → List.lookup k t.sump.groups = none) ∧
        (s.isZ64 = true → groupOf t k = { Group.closed with
          isOpen := true, rowBase := (groupOf s k).rowBase, rowCount := (groupOf s k).rowCount, anchor := (groupOf s k).anchor }) ∧
        (∀ r c, (groupOf s k).rowBase ≤ r → r < (groupOf s k).rowBase + (groupOf s k).rowCount → c < 256 →
          getTotal t (totKey (k / 64) r c) = 0)) ∧
      (∀ a, a ∈ drivenArrays s p.toNat → arrayHeld s a = false → s.psc.stopIssue = false →
        (∀ c, c ∈ (getArray s a).saved.saved → ∃ o, o ∈ (getArray s a).saved.ops ∧ o.id = c.op ∧ o.passage = p.toNat) →
        (getArray t a).stopped = false) ∧
      t.psc.step = s.psc.step ∧ t.hostMem = s.hostMem ∧ t.vers = s.vers ∧ t.regs = s.regs ∧ t.cores = s.cores ∧ t.img = s.img))) ∧
  (∀ (s : State) (p : BitVec 12), hasOps s p.toNat = false → savedOps s p.toNat = [] → (getPassage s p.toNat).status = .ended →
    (getPassage s p.toNat).spec = false → s.psc.committed = true → s.psc.stepOn = true →
    (∀ q, q < min 4096 (ptCount s) → (pentry s q).valid = true → q ≠ p.toNat → passageDone s q = true) →
    s.rlp.groups.all (gatherDone s) = true → gatherWrites s = false → Runs (.passageComplete p) s (BoundaryOf s)) ∧
  (∀ s : State, BoundaryOf s (stepBoundary s)) ∧
  (∀ (old s : State) (x : Nat), efSize s = 0 → (streamOf old x).fmt = (streamOf s x).fmt → (streamOf s x).delayed = true →
    recNat (boundaryStream old s x) x 0x179 1 = recNat s x 0x17A 1) ∧
  (∀ (s : State) (q : Nat), auditOk s q = false → seqOf (auditOne s q) 6 = seqOf s 6 + 1 ∧
    (q ∉ s.ras.excused → (auditOne s q).ras.audit = true ∧ (auditOne s q).psc.run = false) ∧
    (q ∈ s.ras.excused → (auditOne s q).ras.audit = s.ras.audit ∧ (auditOne s q).psc = s.psc)) ∧
  (∀ (s : State) (p : BitVec 12) (first n : Nat), hasOps s p.toNat = false → savedOps s p.toNat = [] → (getPassage s p.toNat).status = .ended →
    (getPassage s p.toNat).spec = false → s.psc.committed = false → s.psc.stepOn = true → s.psc.abortDue = false →
    s.rlp.range = some (first, n) → (∀ i, i < fragCount n → (List.lookup i s.rlp.outFrag).isSome = true) →
    (∀ q, q < min 4096 (ptCount s) → (pentry s q).valid = true → (pentry s q).cls ≠ 4 → q ≠ p.toNat → passageDone s q = true) →
    Runs (.passageComplete p) s (Commits s (some p.toNat))) ∧
  (∀ (s : State) (frags : Option (List Fragment)) (lockMatch : Bool), s.psc.stepOn = true →
    Commits s none (commitStep s frags lockMatch) ∧
    ((∃ q, q < min 4096 (ptCount s) ∧ (pentry s q).valid = true ∧ passageDone s q = false) →
      seqOf (commitStep s frags lockMatch) 2 = seqOf s 2 + 1 ∧
      ((waitingRecords s 2).length < 8 → waitingRecords (commitStep s frags lockMatch) 2 = waitingRecords s 2 ++
        [{ source := 2, seq := seqOf s 2, time := s.clock.ts, code := BitVec.ofNat 16 Ev.stepCommit,
           payload := BitVec.ofNat 24 s.psc.step.toNat }]) ∧
      (lockMatch = false → (commitStep s frags lockMatch).gov.layers = s.gov.layers))) ∧
  (∀ (s : State) (l : Nat), (ruleEnabled s l = false → governLayer s l = s) ∧ (ruleEnabled s l = true →
    let e := ruleBytes s l
    let t := governLayer s l
    let x := getLayer s l
    let y := getLayer t l
    let lk := lockByte s l
    let rung := rungIndex s l (fieldAt e 0 2)
    let top := fieldAt (ladderBytes (liveImg s) (fieldAt e 0 2)) 0 1 - 1
    let since := min (x.since + 1) 65535
    let run := fun (p : Nat) => runsOf s e x p
    let present := fun (p : Nat) => p < 3 ∧ fieldAt (subRule e p) 0 1 ≠ 0
    let promote := ∃ p, present p ∧ fieldAt (subRule e p) 0 1 ≤ (run p).1
    let demote := ∀ p, present p → fieldAt (subRule e p) 2 2 ≤ (run p).2
    let stays := y.pending = x.pending ∧ y.rung = rung ∧ y.since = since ∧ (∀ p, p < 3 → y.up[p]? = some (run p).1 ∧ y.down[p]? = some (run p).2)
    let moves := fun (dst cause : Nat) => y.pending = some dst ∧ y.rung = rung ∧ y.since = 0 ∧ y.up = [0, 0, 0] ∧ y.down = [0, 0, 0] ∧
      t.gov.logWidx = s.gov.logWidx + 1 ∧
      ((waitingRecords s 3).length < 8 → ∃ r, waitingRecords t 3 = waitingRecords s 3 ++ [r] ∧ r.code = BitVec.ofNat 16 Ev.govMove ∧
        r.payload = BitVec.ofNat 24 (l * 2 ^ 14 + rung * 2 ^ 11 + dst * 2 ^ 8 + cause * 2 ^ 6))
    y.lock = lk.testBit 0 ∧ (∀ k, k ≠ l → getLayer t k = getLayer s k) ∧
    (lk.testBit 0 = true → (top < lk / 2 % 8 → stays ∧ seqOf t 3 = seqOf s 3 + 1) ∧ (lk / 2 % 8 = rung → rung ≤ top → stays) ∧
      (lk / 2 % 8 ≤ top → lk / 2 % 8 ≠ rung → moves (lk / 2 % 8) 2)) ∧
    (lk.testBit 0 = false →
      ((∀ p, ¬ present p) ∨ since < fieldAt e 4 2 → stays) ∧
      ((∃ p, present p) → fieldAt e 4 2 ≤ since →
        (promote → rung < top → moves (rung + 1) 0) ∧
        (¬ (promote ∧ rung < top) → demote → 0 < rung → moves (rung - 1) 1) ∧
        (¬ (promote ∧ rung < top) → ¬ (demote ∧ 0 < rung) → stays)))))

/-- R165: a LOAD or BURST slot on an array that the variant in force disables does nothing but raise `array_disabled`, once per passage,
with the array in the payload. -/
def Obligations.DisabledArray : Prop :=
  ∀ (s : State) (a : Fin 64) (sl : Slot) (rest : List Slot) (c : Instr),
    s.psc.accepted = sl :: rest → sl.index < 64 → sl.array = a.val → (castOf s a.val).enabled = false →
    (c = .load a ∧ fld sl.word.toNat 63 60 = 1) ∨ ((∃ b, c = .burst a b) ∧ fld sl.word.toNat 63 60 = 2) →
    Runs c s (fun t =>
      t.sump = s.sump ∧ t.psc.ops = s.psc.ops ∧ t.psc.accepted = rest ∧
      (s.psc.onceAtt.contains (0, Ev.arrayDisabled, sl.passage) = true → t.evt = s.evt) ∧
      (s.psc.onceAtt.contains (0, Ev.arrayDisabled, sl.passage) = false →
        seqOf t (0x10 + a.val / 8) = seqOf s (0x10 + a.val / 8) + 1 ∧
        ((waitingRecords s (0x10 + a.val / 8)).length < 8 → waitingRecords t (0x10 + a.val / 8) = waitingRecords s (0x10 + a.val / 8) ++
          [{ source := BitVec.ofNat 8 (0x10 + a.val / 8), seq := seqOf s (0x10 + a.val / 8), time := s.clock.ts,
             code := BitVec.ofNat 16 Ev.arrayDisabled, payload := BitVec.ofNat 24 (a.val % 8 * 2 ^ 21) }])) ∧
      t.psc.onceAtt.contains (0, Ev.arrayDisabled, sl.passage) = true ∧
      t = { s with
        psc := { s.psc with accepted := rest, onceAtt := t.psc.onceAtt }, evt := t.evt, intc := t.intc, ras := t.ras,
        life := t.life })

/-- A LOAD puts its tile, as staging and the context give it, behind the active one; its arrival completes it (R56, R57, R188). One of
an outlier pass with an empty list loads nothing (R151); the code of a log8 element, which R151 does not allow there, is open (log 8). A row
enters the feeder queues: that of the next burst's pass, at most 64 rows deep (R58, R62 to R65; log 17), read from the partition of the
pass's own context (log 58); of an outlier pass it is a row of the side tensor, the rest zero (R150, R151; how the descriptor names its
elements is log 57). -/
def Obligations.LoadsAndFeederRows : Prop :=
  (∀ (s : State) (a : Fin 64) (sl : Slot) (rest : List Slot),
    s.psc.accepted = sl :: rest → sl.index < 64 → sl.array = a.val → fld sl.word.toNat 63 60 = 1 →
    (castOf s a.val).enabled = true → (ctxOf s sl.passage (fld sl.word.toNat 42 35)).good 1 = true →
    let u := { s with psc := { s.psc with accepted := rest } }
    (emptyOutlier s (ctxOf s sl.passage (fld sl.word.toNat 42 35)) = true → (getArray s a.val).loading = none → Runs (.load a) s (fun t =>
      (getArray t a.val).loading = none ∧ (∃ q, (getArray t a.val).active = some q ∧ q.uid = s.sump.nextUid ∧ q.passage = sl.passage ∧
        q.ctx = fld sl.word.toNat 42 35 ∧ q.cols = []) ∧ (∀ b, b ≠ a.val → getArray t b = getArray s b) ∧
      t.psc.ops = s.psc.ops ∧ t.sump.chunks = s.sump.chunks ∧ t.sump.groups = s.sump.groups ∧ t.sump.totals = s.sump.totals ∧
      t.gov = s.gov ∧ t.hostMem = s.hostMem ∧ t.staging = s.staging ∧ t.vers = s.vers ∧ t.regs = s.regs ∧ t.cores = s.cores)) ∧
    (emptyOutlier s (ctxOf s sl.passage (fld sl.word.toNat 42 35)) = false → Runs (.load a) s (fun t =>
      (∃ q, (getArray t a.val).loading = some q ∧ q.op = sl.op ∧ q.passage = sl.passage ∧ q.uid = s.sump.nextUid ∧
        q.complete = false ∧ q.target = fld sl.word.toNat 26 21 ∧ q.kt = fld sl.word.toNat 19 10 ∧ q.nt = fld sl.word.toNat 9 0 ∧
        q.ctx = fld sl.word.toNat 42 35 ∧ q.fdesc = fld sl.word.toNat 34 27 ∧
        q.cols = (tileOfPass u a.val sl.passage (ctxOf s sl.passage (fld sl.word.toNat 42 35)) (castOf s a.val)
          (fld sl.word.toNat 19 10) (fld sl.word.toNat 9 0)).map (fun c => c.map (·.code))) ∧
      (getArray t a.val).feeder = [] ∧ (getArray t a.val).active = (getArray s a.val).active ∧
      (∀ b, b ≠ a.val → getArray t b = getArray s b) ∧
      t.psc.ops = s.psc.ops ++ [{ id := sl.op, passage := sl.passage, slot := sl.index, kind := .load a.val, writes := [] }] ∧
      t.sump.chunks = s.sump.chunks ∧ t.sump.groups = s.sump.groups ∧ t.sump.totals = s.sump.totals ∧ t.hostMem = s.hostMem ∧
      t.staging = s.staging ∧ t.vers = s.vers ∧ t.regs = s.regs ∧ t.cores = s.cores ∧ t.ves = s.ves ∧ t.clock = s.clock))) ∧
  (∀ (s : State) (a : Fin 64) (q : Pass), (getArray s a.val).loading = some q → q.complete = false →
    exec (.stationaryLoadComplete a) s = .next (finishOp
      (setArray s a.val { getArray s a.val with loading := some { q with complete := true } }) q.op)) ∧
  (∀ (s : State) (a : Fin 64) (m : BitVec 28) (q : Pass), nextPass (getArray s a.val) = some q → (castOf s a.val).enabled = true →
    q.fdesc < feederCount s →
    ((getArray s a.val).feeder.length < 64 → (∀ r, r ∈ (getArray s a.val).feeder → r.m ≠ m.toNat) →
      Runs (.feederFill a m) s (fun t => ∃ r, r.m = m.toNat ∧
        (∀ i, i < (castOf s a.val).segs * (castOf s a.val).L →
          let k := q.origin (castOf s a.val) + i
          let e := feedEntry s (a.val / 8) (passCtx s q).part (castOf s a.val).fs (feederDesc s q.fdesc) m.toNat k
          let x := if isDw s q.passage then (k, m.toNat) else (m.toNat, k)
          (passList s q = none ∨ (∀ o, feedAddr (feederDesc s q.fdesc) m.toNat k ≠ .off o) → r.codes[i]? = some e.1) ∧
          (∀ l o, passList s q = some l → feedAddr (feederDesc s q.fdesc) m.toNat k = .off o →
            (l.length ≤ x.2 → r.codes[i]? = some (zeroCode (castOf s a.val).fs)) ∧
            (x.2 < l.length → ∀ c, (castOf s a.val).fs = 7 → sideEntry s (passCtx s q).stream2 (a.val / 8) x.1 x.2 = some c →
              r.codes[i]? = some c) ∧
            (x.2 < l.length → (castOf s a.val).fs ≠ 7 ∨ sideEntry s (passCtx s q).stream2 (a.val / 8) x.1 x.2 = none →
              r.codes[i]? = some e.1))) ∧
        t = setArray s a.val { getArray s a.val with feeder := (getArray s a.val).feeder ++ [r] })) ∧
    (64 ≤ (getArray s a.val).feeder.length → exec (.feederFill a m) s = .next s))

/-- A BURST: the next tile becomes active, the rows leave the feeder, and each computed element of each segment of each row sends one
chunk word, none of a masked row or column of a dW pass; the target's in-flight count rises by their number and the target belongs to the
passage. On a stopped array the chunks wait for the resume. With no pass, an undescribed feeder or an empty outlier list nothing enters; a
corrupt entry or tile word is uncorrectable (R57 to R59, R61, R88, R94, R123, R151, R188, R333). Of a burst that issued before its array was
told to stop, the rows that had entered by then run through. That the codes are those in staging at the BURST, and that all its chunk
words are there with it, is the model's choice (log 17); that a burst of masked rows alone makes the next tile active too is log 111. -/
def Obligations.Burst : Prop :=
  (∀ (s : State) (a : Fin 64) (sl : Slot) (rest : List Slot) (q : Pass),
    s.psc.accepted = sl :: rest → sl.index < 64 → sl.array = a.val → fld sl.word.toNat 63 60 = 2 →
    (castOf s a.val).enabled = true → nextPass (getArray s a.val) = some q → q.fdesc < feederCount s → passList s q ≠ some [] →
    let m := fld sl.word.toNat 27 0
    let n := fld sl.word.toNat 42 37 + 1
    let r := fld sl.word.toNat 36 28
    let k := groupKey a.val q.target
    let cast := castOf s a.val
    let mask := (passCtx s q).mask
    let sends := fun (c : Chunk) => ∃ i j g place, i < n ∧ j < cast.cols ∧ g < cast.segs ∧ rowOffset s q r m i = some place ∧
      dwRow s q mask (m + i) = true ∧ dwCol s q mask (m + i) (q.nt * cast.cols + j) = true ∧
      c = { makeChunk a.val sl.op q cast (feedRow s a.val q (m + i)).1 place j g with live := (groupOf s k).isOpen }
    let same := fun (t : State) => (∀ j, j ≠ k → groupOf t j = groupOf s j) ∧ (∀ b, b ≠ a.val → getArray t b = getArray s b) ∧
      t.sump.totals = s.sump.totals ∧ t.hostMem = s.hostMem ∧ t.staging = s.staging ∧ t.vers = s.vers ∧ t.regs = s.regs ∧
      t.cores = s.cores ∧ t.ves = s.ves ∧ t.clock = s.clock
    ((getArray s a.val).stopped = false → Runs (.burst a none) s (fun t =>
      (getArray t a.val).loading = none ∧ (getArray t a.val).active = some q ∧
      (∀ x, x ∈ (getArray t a.val).feeder ↔ x ∈ (getArray s a.val).feeder ∧ (x.m < m ∨ m + n ≤ x.m)) ∧
      (∃ new, t.sump.chunks = s.sump.chunks ++ new ∧ (∀ c, c ∈ new ↔ sends c) ∧
        (groupOf t k).inflight = (groupOf s k).inflight + new.length ∧
        (new = [] → t.psc.ops = s.psc.ops ∧ (getArray t a.val).last = (getArray s a.val).last) ∧
        (new ≠ [] →
          t.psc.ops = s.psc.ops ++ [{ id := sl.op, passage := sl.passage, slot := sl.index, kind := .burst a.val, writes := [] }] ∧
          (getArray t a.val).last = some
            { op := sl.op, passage := sl.passage, at_ := s.psc.lastIssue, m := m, rows := n,
              full := (List.range n).map (fun i => new.any (fun c => c.id.row == m + i)),
              takes := (List.range n).map (fun i => rowTake cast (feedRow s a.val q (m + i)).1), slot := entrySlot cast n, done := 0 } ∧
          ((groupOf s k).isOpen = true → (groupOf t k).owner = sl.passage))) ∧ same t)) ∧
    ((getArray s a.val).stopped = true → (∀ c, c ∈ s.sump.chunks → c.op ≠ sl.op) → (∀ o, o ∈ s.psc.ops → o.id ≠ sl.op) →
      let late := fun (c : Chunk) => decide ((getArray s a.val).stopAt < s.psc.lastIssue +
        sumNat ((List.range (c.id.row - m)).map (fun i => rowTake cast (feedRow s a.val q (m + i)).1)))
      Runs (.burst a none) s (fun t => ∃ new, (∀ c, c ∈ new ↔ sends c) ∧
        t.sump.chunks = s.sump.chunks ++ new.filter (fun c => !late c) ∧
        (new ≠ [] → (getArray t a.val).saved.saved = (getArray s a.val).saved.saved ++ new.filter late) ∧
        (groupOf t k).inflight = (groupOf s k).inflight + (new.filter (fun c => !late c)).length ∧
        (new.filter (fun c => !late c) = [] → t.psc.ops = s.psc.ops) ∧ same t))) ∧
  (∀ (s : State) (a : Fin 64) (sl : Slot) (rest : List Slot),
    s.psc.accepted = sl :: rest → sl.index < 64 → sl.array = a.val → fld sl.word.toNat 63 60 = 2 →
    let u := { s with psc := { s.psc with accepted := rest } }
    ((castOf s a.val).enabled = true → nextPass (getArray s a.val) = none →
      exec (.burst a none) s = .next (raiseOpenPassage u 2 Ev.contextInvalid sl.passage)) ∧
    (∀ q, (castOf s a.val).enabled = true → nextPass (getArray s a.val) = some q →
      (feederCount s ≤ q.fdesc →
        exec (.burst a none) s = .next (raiseOpenPassage u (0x10 + a.val / 8) Ev.feederInvalid sl.passage)) ∧
      (q.fdesc < feederCount s → passList s q = some [] → exec (.burst a none) s = .next u)) ∧
    (∀ w : BitVec 17, ∃ t, exec (.burst a none) s = .next t ∧ exec (.burst a (some w)) s =
      .next (if (getArray t a.val).last = (getArray s a.val).last then t else uncorrectable t 4 (a.val / 8) w.toNat)))

/-- The residue check of a chunk word: passed, failed with the mismatch counted, uncorrectable at the fourth mismatch, with an error word
that is open (log 33); and the replay of a failed row, which takes its ACLK of row entry once no row of a burst enters, or waits for the
resume of a stopped array (R61, R70 to R72, R210, R333). That these ACLK pass within the command, those that power holds counted for power
and none with `run` at 0, is the model's choice (log 96). -/
def Obligations.ResidueCheck : Prop :=
  (∀ (s : State) (id : ChunkId) (err : Int) (c : Chunk),
    s.sump.chunks.find? (fun c => c.id == id && !c.wide && (c.stage == .latched || c.stage == .replayed)) = some c →
    let w := BitVec.ofInt 96 (c.word.toInt + err)
    let d := { c with fails := c.fails + 1, stage := .failed }
    ((w.toInt % 31).toNat = c.resid → Runs (.residueCheck id err) s (fun t =>
      t.sump.chunks = mapFirst (fun x => x == c) (fun _ => { c with word := w, stage := .passed }) s.sump.chunks ∧
      t = { s with sump := { s.sump with chunks := t.sump.chunks, arrays := t.sump.arrays } })) ∧
    ((w.toInt % 31).toNat ≠ c.resid → c.fails < 3 → Runs (.residueCheck id err) s (fun t =>
      seqOf t (0x10 + c.id.array / 8) = seqOf s (0x10 + c.id.array / 8) + 1 ∧
      ((columnFaults s c.id.array c.id.col (castOf s c.id.array).c).ras.perm = s.ras.perm →
        ((getArray s c.id.array).stopped = false → t.sump.chunks = mapFirst (fun x => x == c) (fun _ => d) s.sump.chunks) ∧
        ((getArray s c.id.array).stopped = true → t.sump.chunks.length + 1 = s.sump.chunks.length ∧
          (getArray t c.id.array).saved.saved = (getArray s c.id.array).saved.saved ++ [d])) ∧
      t.sump.totals = s.sump.totals ∧ t.hostMem = s.hostMem ∧ t.staging = s.staging ∧ t.vers = s.vers ∧ t.regs = s.regs)) ∧
    ((w.toInt % 31).toNat ≠ c.resid → 3 ≤ c.fails → ∃ u, u.sump.totals = s.sump.totals ∧ u.hostMem = s.hostMem ∧
      u.psc.stepOn = s.psc.stepOn ∧ exec (.residueCheck id err) s =
        .next (uncorrectable u 9 (c.id.array / 8) (Config.errorWord 9 (c.row.toNat * 256 + c.id.col))))) ∧
  (∀ (s : State) (a : Fin 64) (f : Chunk), s.sump.chunks.find? (fun c => c.id.array == a.val && c.stage == .failed) = some f →
    let again := fun (c : Chunk) => c.id.array == a.val && c.stage == .failed && c.op == f.op && c.id.row == f.id.row
    let t := { s with sump := { s.sump with chunks := s.sump.chunks.map (fun c => if again c then { c with stage := .replayed } else c) } }
    ((getArray s a.val).stopped = false → rowsEntering s a.val = true → exec (.rowReplay a) s = .next s) ∧
    ((getArray s a.val).stopped = false → rowsEntering s a.val = false →
      (s.psc.run = true → Runs (.rowReplay a) s (fun u =>
        let p := if s.pwr.paused || s.pwr.waiting then f.take
          else bubblesBefore (bubbleCount s) (s.clock.aclk + f.take) - bubblesBefore (bubbleCount s) s.clock.aclk
        Tab.get 0 u.psc.stalls 4 = satAdd (Tab.get 0 s.psc.stalls 4) (f.take - p) ∧
        Tab.get 0 u.psc.stalls 14 = satAdd (Tab.get 0 s.psc.stalls 14) p ∧
        (∀ c, c ≠ 4 → c ≠ 14 → Tab.get 0 u.psc.stalls c = Tab.get 0 s.psc.stalls c) ∧
        u = { passAclk t f.take with psc := { s.psc with stalls := u.psc.stalls }, life := u.life })) ∧
      (s.psc.run = false → exec (.rowReplay a) s = .next (passAclk t f.take))) ∧
    ((getArray s a.val).stopped = true → Runs (.rowReplay a) s (fun t =>
      (∀ c, c ∈ t.sump.chunks ↔ c ∈ s.sump.chunks ∧ again c = false) ∧
      (getArray t a.val).saved.saved = (getArray s a.val).saved.saved ++ s.sump.chunks.filter again ∧
      t.sump.totals = s.sump.totals ∧ t.hostMem = s.hostMem ∧ t.staging = s.staging ∧ t.regs = s.regs ∧ t.clock = s.clock))) ∧
  (∀ (s : State) (a : Fin 64), (∀ c, c ∈ s.sump.chunks → c.id.array = a.val → c.stage ≠ .failed) → exec (.rowReplay a) s = .next s)

/-- Promotion of a checked chunk whose target was open at its burst and is open: below the promotion limit its element gains the chunk's
value at the group's anchor, no other element changes, the group's promotions rise by the pass's segments at its first chunk, its progress
is the pass's end unless a stop has cut the pass, and the in-flight count falls by one. Past the limit only that element is left open, and the
crossing raises `promotion_limit` (R90). A chunk outside the rows or of a closed group is
dropped; one that must wait stays (R84 to R92, R94, R336). -/
def Obligations.Promotion : Prop :=
  ∀ (s : State) (id : ChunkId) (c : Chunk),
    s.sump.chunks.find? (fun c => c.id == id && (if c.wide then c.stage == .latched else c.stage == .passed)) = some c →
    let k := groupKey c.id.array c.target
    let g := groupOf s k
    let e := totKey c.id.array (g.rowBase + c.row.toNat) c.id.col
    let n := if g.counted.contains c.pass then g.promotions else g.promotions + (castOf s c.id.array).segs
    let leaves := fun (t : State) => (groupOf t k).inflight = g.inflight - 1 ∧ (∀ j, j ≠ k → groupOf t j = groupOf s j) ∧
      s.sump.chunks.length = t.sump.chunks.length + 1 ∧ (∀ d, d ≠ c → (d ∈ t.sump.chunks ↔ d ∈ s.sump.chunks)) ∧
      t.hostMem = s.hostMem ∧ t.staging = s.staging ∧ t.vers = s.vers ∧ t.regs = s.regs ∧ t.cores = s.cores ∧ t.gov = s.gov
    (mustWait s c = true → exec (.chunkPromote id) s = .next s) ∧
    (mustWait s c = false → g.isOpen = true → c.live = true → 0 ≤ c.row → c.row < g.rowCount → n ≤ 2 ^ 23 →
      Runs (.chunkPromote id) s (fun t =>
        getTotal t e = (if c.ow && c.id.seg == 0 then 0 else getTotal s e) + (promote c.value g.anchor).n ∧
        (∀ j, j ≠ e → getTotal t j = getTotal s j) ∧ (groupOf t k).promotions = n ∧ (groupOf t k).counted.contains c.pass = true ∧
        (groupOf t k).anchor = g.anchor ∧ (groupOf t k).isOpen = true ∧
        (groupOf t k).progress = (if cutTarget s c.id.array c.target then g.progress
          else c.korigin / (castOf s c.id.array).L + (castOf s c.id.array).segs) ∧ leaves t)) ∧
    (mustWait s c = false → g.isOpen = true → c.live = true → 0 ≤ c.row → c.row < g.rowCount → 2 ^ 23 < n → Runs (.chunkPromote id) s (fun t =>
      (∀ j, j ≠ e → getTotal t j = getTotal s j) ∧ (groupOf t k).promotions = (if g.counted.contains c.pass then n else min n (2 ^ 24 - 1)) ∧
      (groupOf t k).counted.contains c.pass = true ∧ (groupOf t k).anchor = g.anchor ∧ (groupOf t k).isOpen = true ∧
      (groupOf t k).progress = (if cutTarget s c.id.array c.target then g.progress
        else c.korigin / (castOf s c.id.array).L + (castOf s c.id.array).segs) ∧
      (g.promotions ≤ 2 ^ 23 → seqOf s (0x10 + c.id.array / 8) ≠ seqOf t (0x10 + c.id.array / 8)) ∧ leaves t)) ∧
    (mustWait s c = false → g.isOpen = true → c.live = true → c.row < 0 ∨ (g.rowCount : Int) ≤ c.row →
      Runs (.chunkPromote id) s (fun t => t.sump.totals = s.sump.totals ∧ leaves t ∧
        (s.sump.boundPass.contains c.pass = false → seqOf t (0x10 + c.id.array / 8) = seqOf s (0x10 + c.id.array / 8) + 1 ∧
          t.sump.boundPass.contains c.pass = true) ∧
        (s.sump.boundPass.contains c.pass = true → t.evt = s.evt))) ∧
    (mustWait s c = false → g.isOpen = false ∨ c.live = false → Runs (.chunkPromote id) s (fun t =>
      t.sump.totals = s.sump.totals ∧ leaves t ∧ (groupOf t k).promotions = g.promotions ∧
      (s.psc.onceAtt.contains (0, Ev.groupClosed, 2 ^ 20 + c.op) = true → t.evt = s.evt) ∧
      (s.psc.onceAtt.contains (0, Ev.groupClosed, 2 ^ 20 + c.op) = false →
        seqOf t (0x10 + c.id.array / 8) = seqOf s (0x10 + c.id.array / 8) + 1)))

/-- OPEN, CLOSE and ANCHOR: what each gives its group or region, with the rows of it fresh, and every other element and group as it
was; an OPEN that R91 refuses only raises (R89, R91, R92; all that ANCHOR clears: log 115). A sump slot waits until the chunks that
issued ahead of it have promoted, no operation ahead of it holds its groups, and the combiners it needs are free (R16, R94, R95; log 9). -/
def Obligations.GroupControl : Prop :=
  (∀ (s : State) (slab : Fin 8) (sl : Slot) (rest : List Slot), s.psc.accepted = sl :: rest → sumpReady s sl = false →
    exec (.openGroup slab) s = .next s ∧ exec (.close slab) s = .next s ∧ exec (.anchor slab) s = .next s ∧
    exec (.drain slab) s = .next s ∧ exec (.spill slab) s = .next s ∧ exec (.reload slab) s = .next s ∧ exec (.combine slab) s = .next s) ∧
  ∀ (s : State) (slab : Fin 8) (sl : Slot) (rest : List Slot), s.psc.accepted = sl :: rest → sl.index = 88 + slab.val →
    sumpReady s sl = true →
    let a := 8 * slab.val + fld sl.word.toNat 59 57
    let g := fld sl.word.toNat 56 51
    let k := groupKey a g
    let base := fld sl.word.toNat 50 42
    let count := fld sl.word.toNat 41 33
    let anchor := signed 10 (fld sl.word.toNat 32 23)
    let fresh := fun (t : State) (b n : Nat) => (∀ r c, b ≤ r → r < b + n → c < 256 → getTotal t (totKey a r c) = 0) ∧
      (∀ r c, r < 384 → c < 256 → r < b ∨ b + n ≤ r → getTotal t (totKey a r c) = getTotal s (totKey a r c)) ∧
      (∀ b r c, b ≠ a → r < 384 → c < 256 → getTotal t (totKey b r c) = getTotal s (totKey b r c)) ∧ (∀ j, j ≠ k → groupOf t j = groupOf s j)
    (fld sl.word.toNat 63 60 = 1 → s.isZ64 = false → openRefused s a g base count = false → Runs (.openGroup slab) s (fun t =>
      groupOf t k = { Group.closed with
        isOpen := true, shadow := (getPassage s sl.passage).spec, rowBase := base, rowCount := count, anchor := anchor,
        owner := sl.passage, inflight := (groupOf s k).inflight } ∧ fresh t base count ∧
      ((getPassage s sl.passage).spec = true → (k, sl.passage) ∈ t.sump.owners) ∧
      t = { s with
        psc := { s.psc with accepted := rest },
        sump := { s.sump with groups := t.sump.groups, totals := t.sump.totals, owners := t.sump.owners },
        ras := { s.ras with units := t.ras.units } })) ∧
    (fld sl.word.toNat 63 60 = 1 → s.isZ64 = false → openRefused s a g base count = true → exec (.openGroup slab) s =
      .next (raiseOpen { s with psc := { s.psc with accepted := rest } } (0x10 + a / 8) Ev.groupConflict)) ∧
    (fld sl.word.toNat 63 60 = 2 → s.isZ64 = false → (groupOf s k).isOpen = true → (groupOf s k).rowBase + (groupOf s k).rowCount ≤ 384 →
      Runs (.close slab) s (fun t =>
      groupOf t k = { Group.closed with inflight := (groupOf s k).inflight } ∧ fresh t (groupOf s k).rowBase (groupOf s k).rowCount ∧
      t = { s with
        psc := { s.psc with accepted := rest }, sump := { s.sump with groups := t.sump.groups, totals := t.sump.totals } })) ∧
    (fld sl.word.toNat 63 60 = 2 → s.isZ64 = false → (groupOf s k).isOpen = false → exec (.close slab) s =
      .next (raiseOpen { s with psc := { s.psc with accepted := rest } } (0x10 + a / 8) Ev.groupClosed)) ∧
    (fld sl.word.toNat 63 60 = 3 → s.isZ64 = true → (groupOf s k).rowBase + (groupOf s k).rowCount ≤ 384 → Runs (.anchor slab) s (fun t =>
      groupOf t k = { Group.closed with
        isOpen := true, rowBase := (groupOf s k).rowBase, rowCount := (groupOf s k).rowCount, anchor := anchor } ∧
      fresh t (groupOf s k).rowBase (groupOf s k).rowCount ∧
      t = { s with
        psc := { s.psc with accepted := rest }, sump := { s.sump with groups := t.sump.groups, totals := t.sump.totals } })) ∧
    (fld sl.word.toNat 63 60 = 3 → s.isZ64 = false → exec (.anchor slab) s = .next { s with psc := { s.psc with accepted := rest } }) ∧
    (fld sl.word.toNat 63 60 = 1 → s.isZ64 = true → exec (.openGroup slab) s = .next { s with psc := { s.psc with accepted := rest } })

/-- A drain holds its group, changes no total, and delivers its tiles: into the finished-tile queue, one entry each (a RUN that waits
takes the ready ones at its head), or within the window of its partition; tiles of a checked stream only at their check; then the drain
ends. One of a closed group, or with an invalid context, does nothing but raise (R95, R100, R101, R144, R145, R192, R213, R214). -/
def Obligations.Drain : Prop :=
  (∀ (s : State) (slab : Fin 8) (sl : Slot) (rest : List Slot), s.psc.accepted = sl :: rest → sl.index = 88 + slab.val →
    fld sl.word.toNat 63 60 = 4 → sumpReady s sl = true →
    let u := { s with psc := { s.psc with accepted := rest } }
    let d := sl.drain u
    let k := sl.sumpKey
    let kind := OpKind.drain d.array d.group d.ctxId d.mode (fld sl.word.toNat 40 40 == 1) d.n0 d.m0
      (if d.st.checked then d.tiles u else []) false
    ((groupOf s k).isOpen = false → exec (.drain slab) s = .next (raiseOpen u (0x10 + d.array / 8) Ev.groupClosed)) ∧
    ((groupOf s k).isOpen = true → d.cx.good 2 = false →
      exec (.drain slab) s = .next (raiseOpenPassage u 2 Ev.contextInvalid sl.passage)) ∧
    ((groupOf s k).isOpen = true → d.cx.good 2 = true → Runs (.drain slab) s (fun t =>
      sl.op ∈ (groupOf t k).busy ∧ t.sump.totals = s.sump.totals ∧ (∀ j, j ≠ k → groupOf t j = groupOf s j) ∧
      t.psc.ops.map (·.id) = s.psc.ops.map (·.id) ++ [sl.op] ∧
      (∃ o, o ∈ t.psc.ops ∧ o.id = sl.op ∧ o.passage = sl.passage ∧ o.slot = sl.index ∧ o.kind = kind ∧
        o.reads = (if d.st.checked = true then d.fusedSpans u else []) ∧
        o.writes = (if d.st.checked = true then d.spans u else [])) ∧
      (d.mode = 0 → t.staging = s.staging ∧ ((∀ o, o ∈ s.psc.ops → o.need = 0) →
        (getVe t slab.val).entries.length = (getVe s slab.val).entries.length + (d.tiles u).length)) ∧
      (d.st.checked = true → t.staging = s.staging ∧ t.hostMem = s.hostMem) ∧
      (∀ x, x < stKey slab.val d.cx.part 0 ∨ stKey slab.val d.cx.part 0 + windowBytes s slab.val d.cx.part ≤ x →
        stByte t x = stByte s x) ∧
      t.vers = s.vers ∧ t.regs = s.regs ∧ t.cores = s.cores ∧ t.img = s.img ∧ t.sump.arrays = s.sump.arrays))) ∧
  (∀ (s : State) (op tile : Nat) (o : Op) (a g ctx mode n0 m0 : Nat) (closes requant : Bool) (left : List DrainTile) (x : DrainTile),
    findOp s op = some o → o.kind = .drain a g ctx mode closes n0 m0 left requant → left[tile]? = some x →
    Runs (.drainTileCheck op tile) s (fun t => (∃ o', findOp t op = some o' ∧ o'.passage = o.passage ∧
        (∃ rq, o'.kind = .drain a g ctx mode closes n0 m0 (left.eraseIdx tile) rq) ∧ (left.length = 1 → o'.writes = [] ∧ o'.reads = [])) ∧
      t.sump = s.sump ∧ t.vers = s.vers ∧ t.regs = s.regs ∧ t.cores = s.cores)) ∧
  (∀ (s : State) (op : Nat) (o : Op) (a g ctx mode n0 m0 : Nat) (closes requant : Bool),
    findOp s op = some o → o.kind = .drain a g ctx mode closes n0 m0 [] requant → op ∈ (groupOf s (groupKey a g)).busy →
    Runs (.drainComplete op) s (fun t => findOp t op = none ∧
      (closes = true → s.isZ64 = false → groupOf t (groupKey a g) = { Group.closed with
        busy := (groupOf s (groupKey a g)).busy.filter (· != op), inflight := (groupOf s (groupKey a g)).inflight }) ∧
      (closes = false ∨ s.isZ64 = true → t.sump.totals = s.sump.totals ∧ groupOf t (groupKey a g) =
        { groupOf s (groupKey a g) with busy := (groupOf s (groupKey a g)).busy.filter (· != op) }) ∧
      (∀ j, j ≠ groupKey a g → groupOf t j = groupOf s j) ∧
      t = { s with psc := { s.psc with ops := t.psc.ops }, sump := { s.sump with groups := t.sump.groups, totals := t.sump.totals } }))

/-- A spill writes each total as a 20-byte number, or its value in binary64, at its record; a reload adds records to the totals, or with
`ow` in Z64 overwrites them, once no chunk issued before it is in flight where one of the two overwrites; both end (R87, R94, R103,
R104). A combine whose blocks are unmasked, its groups open, its route enabled and its anchors equal, once the combiners of its slabs are
free: each destination element is the sum over the participants; other elements stay; no participant moves until it ends (R16, R97,
R98). Past the promotion limit of R90 the elements added to are open, no other. A spill, reload or
combine of a closed group, a spill or reload in an invalid context, a reload or combine of differing anchors and a combine over a disabled
route do nothing but raise; a combine of a masked block does nothing (R91, R98, R104, R123, R192). -/
def Obligations.SpillReloadCombine : Prop :=
  (∀ (s : State) (slab : Fin 8) (sl : Slot) (rest : List Slot), s.psc.accepted = sl :: rest → sl.index = 88 + slab.val →
    let k := sl.sumpKey
    let g := groupOf s k
    let cx := ctxOf s sl.passage (fld sl.word.toNat 50 43)
    let bin := fld sl.word.toNat 42 42 == 1
    let size := if bin then 8 else 20
    g.isOpen = true → cx.good 2 = true → sumpReady s sl = true →
    (fld sl.word.toNat 63 60 = 5 → 256 * size ≤ cx.pitch → Runs (.spill slab) s (fun t =>
      (∀ i c j, i < g.rowCount → c < 256 → j < size → recordAt cx size i c + size ≤ windowBytes s slab.val cx.part →
        let n := (leave (getTotal s (totKey sl.sumpArray (g.rowBase + i) c))).1
        some (stByte t (stKey slab.val cx.part (recordAt cx size i c) + j)) =
          (if bin then leBytes 8 (toBinary64 (totalValue n g.anchor)) else leBytes 20 (lowBits 160 n))[j]?) ∧
      (∀ x, x < stKey slab.val cx.part 0 ∨ stKey slab.val cx.part 0 + windowBytes s slab.val cx.part ≤ x → stByte t x = stByte s x) ∧
      sl.op ∈ (groupOf t k).busy ∧ t.sump.totals = s.sump.totals ∧
      t.psc.ops = s.psc.ops ++ [{ id := sl.op, passage := sl.passage, slot := sl.index, kind := .spill sl.sumpArray sl.group, writes := [] }] ∧
      t.hostMem = s.hostMem ∧ t.vers = s.vers ∧ t.regs = s.regs ∧ t.cores = s.cores)) ∧
    (fld sl.word.toNat 63 60 = 6 → bin = true ∨ signed 10 (fld sl.word.toNat 40 31) = g.anchor →
      g.promotions < 2 ^ 23 → Runs (.reload slab) s (fun t =>
        (∀ i c, i < g.rowCount → c < 256 → recordAt cx size i c + size ≤ windowBytes s slab.val cx.part →
          let raw := leNat ((List.range size).map (fun j => stByte s (stKey slab.val cx.part (recordAt cx size i c) + j)))
          getTotal t (totKey sl.sumpArray (g.rowBase + i) c) =
            (if s.isZ64 = true ∧ fld sl.word.toNat 41 41 = 1 then 0 else getTotal s (totKey sl.sumpArray (g.rowBase + i) c)) +
            (if bin then (promote (ofBinary64 raw) g.anchor).n else signed 160 raw)) ∧
        (∀ e, (∀ i c, i < g.rowCount → c < 256 → e ≠ totKey sl.sumpArray (g.rowBase + i) c) → getTotal t e = getTotal s e) ∧
        (groupOf t k).promotions = g.promotions + 1 ∧ t.staging = s.staging ∧ t.hostMem = s.hostMem ∧ t.vers = s.vers ∧
        t.regs = s.regs ∧ t.cores = s.cores)) ∧
    (fld sl.word.toNat 63 60 = 6 → bin = true ∨ signed 10 (fld sl.word.toNat 40 31) = g.anchor →
      2 ^ 23 ≤ g.promotions → Runs (.reload slab) s (fun t =>
        (∀ e, (∀ i c, i < g.rowCount → c < 256 → e ≠ totKey sl.sumpArray (g.rowBase + i) c) → getTotal t e = getTotal s e) ∧
        (groupOf t k).promotions = min (g.promotions + 1) (2 ^ 24 - 1) ∧ t.staging = s.staging ∧ t.hostMem = s.hostMem ∧ t.vers = s.vers ∧
        t.regs = s.regs ∧ t.cores = s.cores))) ∧
  (∀ (s : State) (slab : Fin 8) (sl : Slot) (rest : List Slot), s.psc.accepted = sl :: rest → sl.index = 88 + slab.val →
    sumpReady s sl = true →
    let u := { s with psc := { s.psc with accepted := rest } }
    let g := groupOf s sl.sumpKey
    let good := (ctxOf s sl.passage (fld sl.word.toNat 50 43)).good 2
    (fld sl.word.toNat 63 60 = 5 →
      (g.isOpen = false → exec (.spill slab) s = .next (raiseOpen u (0x10 + sl.sumpArray / 8) Ev.groupClosed)) ∧
      (g.isOpen = true → good = false → exec (.spill slab) s = .next (raiseOpenPassage u 2 Ev.contextInvalid sl.passage))) ∧
    (fld sl.word.toNat 63 60 = 6 →
      (g.isOpen = false → exec (.reload slab) s = .next (raiseOpen u (0x10 + sl.sumpArray / 8) Ev.groupClosed)) ∧
      (g.isOpen = true → good = false → exec (.reload slab) s = .next (raiseOpenPassage u 2 Ev.contextInvalid sl.passage)) ∧
      (g.isOpen = true → good = true → fld sl.word.toNat 42 42 = 0 → signed 10 (fld sl.word.toNat 40 31) ≠ g.anchor →
        exec (.reload slab) s = .next (raiseOpen u (0x10 + sl.sumpArray / 8) Ev.anchorMismatch))) ∧
    (fld sl.word.toNat 63 60 = 7 →
      (combineMasked s sl = true → exec (.combine slab) s = .next u) ∧
      (combineMasked s sl = false → (∃ k, k ∈ sl.destKey :: sl.combineKeys ∧ (groupOf s k).isOpen = false) →
        exec (.combine slab) s = .next (raiseOpen u (0x10 + sl.combineDest / 8) Ev.groupClosed)) ∧
      (combineMasked s sl = false → (∀ k, k ∈ sl.destKey :: sl.combineKeys → (groupOf s k).isOpen = true) →
        (routeOk s sl = false → exec (.combine slab) s = .next (raiseOpen u (0x10 + sl.combineDest / 8) Ev.combineRoute)) ∧
        (routeOk s sl = true → (∃ k, k ∈ sl.combineKeys ∧ (groupOf s k).anchor ≠ (groupOf s sl.destKey).anchor) →
          exec (.combine slab) s = .next (raiseOpen u (0x10 + sl.combineDest / 8) Ev.anchorMismatch))))) ∧
  (∀ (s : State) (op a g : Nat) (o : Op), findOp s op = some o →
    (o.kind = .spill a g → op ∈ (groupOf s (groupKey a g)).busy → Runs (.spillComplete op) s (fun t => findOp t op = none ∧
      groupOf t (groupKey a g) = { groupOf s (groupKey a g) with busy := (groupOf s (groupKey a g)).busy.filter (· != op) } ∧
      t = { s with psc := { s.psc with ops := t.psc.ops }, sump := { s.sump with groups := t.sump.groups } })) ∧
    (o.kind = .reload a g → exec (.reloadComplete op) s = .next { s with psc := { s.psc with ops := s.psc.ops.filter (fun x => x.id != op) } })) ∧
  (∀ (s : State) (slab : Fin 8) (sl : Slot) (rest : List Slot), s.psc.accepted = sl :: rest → sl.index = 88 + slab.val →
    fld sl.word.toNat 63 60 = 7 → combineMasked s sl = false → sumpReady s sl = true →
    (∀ k, k ∈ sl.destKey :: sl.combineKeys → (groupOf s k).isOpen = true ∧ (groupOf s k).anchor = (groupOf s sl.destKey).anchor) →
    routeOk s sl = true →
    let d := groupOf s sl.destKey
    let n := d.promotions + sumNat (sl.combineKeys.map (fun k => (groupOf s k).promotions))
    Runs (.combine slab) s (fun t => (groupOf t sl.destKey).promotions = min n (2 ^ 24 - 1) ∧
      (∀ i c, i < d.rowCount → c < 256 → n ≤ 2 ^ 23 →
        getTotal t (totKey sl.combineDest (d.rowBase + i) c) = combineSum s sl.combineKeys i c) ∧
      (∀ e, (∀ i c, i < d.rowCount → c < 256 → e ≠ totKey sl.combineDest (d.rowBase + i) c) → getTotal t e = getTotal s e) ∧
      (∀ k, k ∈ sl.destKey :: sl.combineKeys → sl.op ∈ (groupOf t k).busy) ∧
      (∀ k, k ∉ sl.destKey :: sl.combineKeys → groupOf t k = groupOf s k) ∧
      t.hostMem = s.hostMem ∧ t.staging = s.staging ∧ t.vers = s.vers ∧ t.regs = s.regs ∧ t.cores = s.cores ∧
      t.sump.chunks = s.sump.chunks ∧ t.sump.arrays = s.sump.arrays)) ∧
  (∀ (s : State) (slab : Fin 8) (sl : Slot) (rest : List Slot), s.psc.accepted = sl :: rest → sl.index = 88 + slab.val →
    (fld sl.word.toNat 63 60 = 6 → reloadWaits s sl = true → exec (.reload slab) s = .next s) ∧
    (fld sl.word.toNat 63 60 = 7 → combineMasked s sl = false → combinerBusy s sl = true → exec (.combine slab) s = .next s)) ∧
  (∀ (s : State) (op n : Nat) (o : Op) (k : Nat) (keys : List Nat), findOp s op = some o → o.kind = .combine k keys n →
    (∀ j, j ∈ k :: keys → op ∈ (groupOf s j).busy) → Runs (.combineComplete op) s (fun t => findOp t op = none ∧
      (∀ j, j ∈ k :: keys → groupOf t j = { groupOf s j with busy := (groupOf s j).busy.filter (· != op) }) ∧ (∀ j, j ∉ k :: keys → groupOf t j = groupOf s j) ∧
      t = { s with psc := { s.psc with ops := t.psc.ops }, sump := { s.sump with groups := t.sump.groups } }))

/-- The byte of staging lies in a partition's window. -/
def InPartition (s : State) (slab part x : Nat) : Prop :=
  stKey slab part 0 ≤ x ∧ x < stKey slab part 0 + windowBytes s slab part

/-- A RUN of kinds 1 to 5 whose slot is at the front. -/
def RunSlot (s : State) (slab : Fin 8) (sl : Slot) (rest : List Slot) (c : Instr) (kind : Nat) : Prop :=
  s.psc.accepted = sl :: rest ∧ sl.index = 64 + slab.val ∧ fld sl.word.toNat 63 60 = 1 ∧ sl.veKind s = kind ∧ findOp s sl.op = none ∧
    ((c = .veMap slab ∧ kind = 1) ∨ (c = .veReduce slab ∧ kind = 2) ∨ (c = .veSelect slab ∧ kind = 3) ∨
      (c = .veWideAdd slab ∧ kind = 4) ∨ (c = .veWideConvert slab ∧ kind = 5))

/-- A request without what has been written behind it (R275, log 131). -/
def bare (r : BmpReq) : BmpReq := { r with kept := [] }
/-- A started RUN has its lane groups and registers, and has computed what its kind sets out from the staging, tables and queue entries
that stood at its start: `r` reads everything of `s` but the queue, elements of inputs or outputs that overlap otherwise than in place
being open (log 8); it has written only partitions of its outputs, and keeps its summary. -/
def RunDone (s t : State) (slab : Nat) (sl : Slot) (rest : List Slot) (kind : Nat) (r : VeRun) : Prop :=
  (getVe t slab).groups = (getVe s slab).groups ||| BitVec.ofNat 4 sl.laneMask ∧
  (getVe t slab).regs = (getVe s slab).regs ||| BitVec.ofNat 6 r.d.regs ∧ (∀ k, k ≠ slab → getVe t k = getVe s k) ∧
  (∃ o words nz thr sat, findOp t sl.op = some o ∧ o.passage = sl.passage ∧ o.slot = sl.index ∧
    o.kind = .run slab sl.laneMask r.d.regs sl.descIndex true words r.d.sdest nz thr sat ∧
    words.length = (if r.d.summ then popcount r.d.smask 6 else 0)) ∧
  (∃ u : State, u = { s with
      psc := { s.psc with accepted := rest, ops := u.psc.ops }, ves := u.ves, ras := { s.ras with units := u.ras.units } } ∧
    let k := r.clash u
    let v := freeClash u k.1
    t.staging = (freeClash (if kind = 1 then runMap v r else if kind = 2 then runReduce v r else if kind = 3 then runSelect v r
      else if kind = 4 then runWideAdd v r else runWideConvert v r).st k.2).staging) ∧
  (∀ x, (∀ n k, r.out s n = some k → ¬ InPartition s slab k.part x) → stByte t x = stByte s x) ∧
  t.psc.accepted = rest ∧ t.sump = s.sump ∧ t.vers = s.vers ∧ t.regs = s.regs ∧ t.cores = s.cores ∧ t.img = s.img ∧
  t.bmp = { s.bmp with reqs := t.bmp.reqs, redo := t.bmp.redo } ∧ t.bmp.reqs.map bare = s.bmp.reqs.map bare ∧
  t.bmp.redo.map bare = s.bmp.redo.map bare

/-- A RUN of kinds 1 to 5: one that needs no queue entry computes at once. One that reads the queue is accepted without waiting for it,
takes the entries at the head once they stand ready, in the order in which the RUNs were accepted, and computes with them when it lacks
none; it does not finish before. A select takes the place of a masked block as its no-op, another RUN passes over it (R123; log 123). When a
RUN ends the summary words stand in consecutive scalar registers, its lane groups and registers are free, the slab's counters hold its
counts (R213, R214, R216 to R227). -/
def Obligations.VectorRun : Prop :=
  (∀ (s : State) (slab : Fin 8) (sl : Slot) (rest : List Slot) (c : Instr) (kind : Nat), RunSlot s slab sl rest c kind →
    let r := sl.veRun s
    let n := r.d.ftqTiles
    let q := (getVe s slab.val).ftq
    (r.d.ftq = false → Runs c s (fun t => RunDone s t slab.val sl rest kind r ∧
      ((∀ o, o ∈ s.psc.ops → o.need = 0) → (getVe t slab.val).ftq = q))) ∧
    (r.d.ftq = true → 0 < n → (∀ o, o ∈ s.psc.ops → lacksTiles o slab.val = false) →
      (∀ es back, q = es ++ back → es.length = n → (∀ e, e ∈ es → e.ready = true ∧ (e.masked = false ∨ kind = 3)) →
        Runs c s (fun t => RunDone s t slab.val sl rest kind { r with ftq := es } ∧ (getVe t slab.val).ftq = back)) ∧
      (∀ m es back, q = m ++ es ++ back → (∀ e, e ∈ m → e.masked = true) → kind ≠ 3 → es.length = n →
        (∀ e, e ∈ es → e.ready = true ∧ e.masked = false) →
        Runs c s (fun t => RunDone s t slab.val sl rest kind { r with ftq := es } ∧ (getVe t slab.val).ftq = back)) ∧
      ((∀ e back, q = e :: back → e.ready = false ∧ e.masked = false) → Runs c s (fun t =>
        (∃ o, t.psc.ops = s.psc.ops ++ [o] ∧ o.id = sl.op ∧ o.passage = sl.passage ∧ o.slot = sl.index ∧ o.need = n ∧ o.taken = [] ∧
          o.kind = .run slab.val sl.laneMask r.d.regs sl.descIndex false sl.scalars r.d.sdest 0 0 0 ∧
          exec (.runFinish sl.op) t = .next t) ∧
        getVe t slab.val = { getVe s slab.val with
          groups := (getVe s slab.val).groups ||| BitVec.ofNat 4 sl.laneMask, regs := (getVe s slab.val).regs ||| BitVec.ofNat 6 r.d.regs,
          runWait := 0, ownerLast := false } ∧ (∀ k, k ≠ slab.val → getVe t k = getVe s k) ∧
        t = { s with psc := { s.psc with accepted := rest, ops := t.psc.ops }, ves := t.ves })))) ∧
  (∀ (s : State) (slab : Nat) (o : Op) (es back : List FtqEntry), s.psc.ops.filter (fun x => lacksTiles x slab) = [o] →
    findOp s o.id = some o → (getVe s slab).ftq = es ++ back → es ≠ [] → es.length ≤ o.need → (∀ e, e ∈ es → e.ready = true ∧ e.masked = false) →
    (es.length = o.need ∨ ∀ e tail, back = e :: tail → e.ready = false ∧ e.masked = false) →
    let t := feedRun s slab
    findOp t o.id = some { o with need := o.need - es.length, taken := o.taken ++ es } ∧ (getVe t slab).ftq = back ∧
    t = { s with psc := { s.psc with ops := t.psc.ops }, ves := t.ves, ras := { s.ras with units := t.ras.units } }) ∧
  (∀ (s : State) (op : Nat) (o : Op) (slab groups regs desc : Nat) (scalars : List Word) (dest nz thr sat : Nat),
    findOp s op = some o → o.kind = .run slab groups regs desc false scalars dest nz thr sat → 0 < o.need → exec (.runFinish op) s = .next s) ∧
  (∀ (s : State) (op : Nat) (o : Op) (slab groups regs desc : Nat) (words : List Word) (dest nz thr sat : Nat),
    findOp s op = some o → o.kind = .run slab groups regs desc true words dest nz thr sat →
    Runs (.runFinish op) s (fun t => findOp t op = none ∧
      (∀ i w, words[i]? = some w → getScalar t ((dest + i) / 64) ((dest + i) % 64) = w) ∧
      (∀ n j, j < 64 → (∀ i, i < words.length → dest + i ≠ 64 * n + j) → getScalar t n j = getScalar s n j) ∧
      getVe t slab = { getVe s slab with
        groups := (getVe s slab).groups &&& ~~~ BitVec.ofNat 4 groups, regs := (getVe s slab).regs &&& ~~~ BitVec.ofNat 6 regs,
        nz := satAdd (getVe s slab).nz nz, thr := satAdd (getVe s slab).thr thr, sat := satAdd (getVe s slab).sat sat,
        last := BitVec.ofNat 16 desc } ∧
      (∀ k, k ≠ slab → getVe t k = getVe s k) ∧
      t = { s with cores := t.cores, ves := t.ves, psc := { s.psc with ops := t.psc.ops } }))

/-- An update RUN, begun or retried: its tensor is marked, it writes only partitions of its outputs, moments and counts; a tile that cannot
be read leaves it waiting for its retry; a bad row list makes it a no-op (R133, R231 to R236, R241, R334). -/
def Obligations.VectorUpdate : Prop :=
  (∀ (s : State) (slab : Fin 8) (sl : Slot) (rest : List Slot) (bad : Option Nat),
    s.psc.accepted = sl :: rest → sl.index = 64 + slab.val → fld sl.word.toNat 63 60 = 1 → sl.veKind s = 6 → findOp s sl.op = none →
    let u := sl.updRun s
    (∀ x, (∀ i k, i ∈ [u.d.wo, u.d.t, u.d.c, u.d.sc] ++ u.d.ms → u.ctx? s i = some k → ¬ InPartition s slab.val k.part x) →
      Runs (.veUpdate slab bad) s (fun t => stByte t x = stByte s x)) ∧
    Runs (.veUpdate slab bad) s (fun t => t.psc.accepted = rest ∧ t.sump = s.sump ∧ t.regs = s.regs ∧ t.cores = s.cores ∧
      t.img = s.img ∧ (∀ x, x ≠ u.d.tensor → getVer t x = getVer s x)) ∧
    (verOk s u.d.tensor = true → (u.d.embed = true → rowList s u ≠ none) → (∀ x, s.ras.updFrom = some x → x.1 ≠ sl.op) →
      Runs (.veUpdate slab bad) s (fun t =>
      getVer t u.d.tensor = { getVer s u.d.tensor with updating := true } ∧
      (bad = none → t.ras.updFail = s.ras.updFail ∧ t.psc.stopIssue = s.psc.stopIssue ∧
        (getVe t slab.val).groups = (getVe s slab.val).groups ||| BitVec.ofNat 4 sl.laneMask ∧
        ∃ o words nz thr sat, findOp t sl.op = some o ∧
          o.kind = .run slab.val sl.laneMask u.d.regs sl.descIndex true words u.d.sdest nz thr sat) ∧
      (∀ b, bad = some b → b < u.tiles → u.okGrp = true → blockMasked s u.d.mask (u.block b).1 (u.block b).2 = false →
        t.psc.stopIssue = true ∧ t.ras.updFail = some { slot := sl, slab := slab.val, tensor := u.d.tensor, brow := (u.block b).1,
                                                        bcol := (u.block b).2, tile := b }))) ∧
    (verOk s u.d.tensor = true → u.d.embed = true → rowList s u = none → (∀ x, s.ras.updFrom = some x → x.1 ≠ sl.op) →
      Runs (.veUpdate slab bad) s (fun t => findOp t sl.op = none ∧ t.staging = s.staging ∧ t.hostMem = s.hostMem ∧ t.vers = s.vers ∧
        (getVe t slab.val).groups = ((getVe s slab.val).groups ||| BitVec.ofNat 4 sl.laneMask) &&& ~~~ BitVec.ofNat 4 sl.laneMask)) ∧
    (verOk s u.d.tensor = false → Runs (.veUpdate slab bad) s (fun t => t.staging = s.staging ∧ t.hostMem = s.hostMem ∧ t.vers = s.vers))) ∧
  (∀ (s : State) (slab : Fin 8) (sl : Slot) (rest : List Slot) (k : Nat) (o : Op),
    s.psc.accepted = sl :: rest → sl.index = 64 + slab.val → fld sl.word.toNat 63 60 = 1 → sl.veKind s = 6 →
    findOp s sl.op = some o → s.ras.updFrom = some (sl.op, k) →
    let u := sl.updRun s
    verOk s u.d.tensor = true → (u.d.embed = true → rowList s u ≠ none) → Runs (.veUpdate slab none) s (fun t =>
      t.ras.updFrom = none ∧ t.ras.updFail = s.ras.updFail ∧ t.psc.accepted = rest ∧
      ∃ o' words nz thr sat, findOp t sl.op = some o' ∧ o'.passage = o.passage ∧
        o'.kind = .run slab.val sl.laneMask u.d.regs sl.descIndex true words u.d.sdest nz thr sat))

/-- What an abort of the step leaves (R131, R140, R203, R208, R263, R279, R312): the scheduler idle, the same step to be tried again as the
next attempt, bindings, statistics, totals, staging slots but frame buffers, and notify queues given up, mailbox 1 posted. -/
def Aborted (s t : State) : Prop :=
  t.psc.stepOn = false ∧ t.psc.run = false ∧ t.psc.step = s.psc.step ∧ t.psc.repeats = (s.psc.repeats || s.psc.stepOn) ∧
  (s.psc.attempt ≠ 255 → t.psc.attempt = s.psc.attempt + 1) ∧ (s.psc.attempt = 255 → t.psc.attempt = 255 ∧ t.psc.limited = true) ∧
  t.psc.ops = [] ∧ t.psc.accepted = [] ∧ t.psc.issuing = none ∧ t.psc.conds = [] ∧ t.psc.abortDue = false ∧ t.gov.loc = [] ∧
  t.sump.totals = [] ∧ t.sump.groups = [] ∧ t.sump.chunks = [] ∧ (∀ kv, kv ∈ t.staging.alloc → isFrameSlot s kv.1 = true) ∧
  (∀ n, (getCore t n).notify = []) ∧ (∀ x, (getVer t x).bound = (getVer s x).atStart ∧ (getVer t x).cur = (getVer s x).cur) ∧
  getMbx t 1 = { value := BitVec.ofNat 64 (s.psc.step.toNat + s.psc.attempt.toNat * 2 ^ 40), seq := (getMbx s 1).seq + 1, ready := true } ∧
  (∀ n, n ≠ 1 → getMbx t n = getMbx s n) ∧ t.ras.lostWait = false ∧ t.rlp.range = none ∧ t.rlp.outFrag = [] ∧
  t.rlp.fbuf = [] ∧ t.rlp.windows = [] ∧ t.regs = s.regs ∧ t.boot = s.boot

/-- The step aborts: at once where nothing it has started blocks the abort, else once that is done, with no bundle issued and the arrays
stopped meanwhile (R206, R208, R333; log 88). -/
def Aborts (s t : State) : Prop :=
  (opsSettled s = true → Aborted s t) ∧
  (opsSettled s = false → t.psc.abortDue = true ∧ t.psc.stopIssue = true ∧
    (∀ a, a < s.silicon.cls.arrays → (getArray t a).stopped = true) ∧ t.psc.stepOn = s.psc.stepOn ∧ t.psc.step = s.psc.step ∧
    t.psc.attempt = s.psc.attempt ∧ t.mbx = s.mbx ∧ t.hostMem = s.hostMem ∧ t.regs = s.regs ∧ t.boot = s.boot)

/-- What an uncorrectable error leaves (R333): its event and count; of a step before its commit, once no further bundle issues and every
array has been told to stop, a call for the abort: a notice is due, or this rank decides, or aborts at once without a port; nothing is left
to call for once an abort is decided, or statistics or a notice have gone up. -/
def StepFails (s t : State) (unit slab addr : Nat) : Prop :=
  ∃ u, seqOf u 6 = seqOf s 6 + 1 ∧
    ((waitingRecords s 6).length < 8 → waitingRecords u 6 = waitingRecords s 6 ++
      [{ source := 6, seq := seqOf s 6, time := s.clock.ts, code := BitVec.ofNat 16 Ev.uncorrectable,
         payload := BitVec.ofNat 24 (unit % 16 * 2 ^ 20 + slab % 8 * 2 ^ 17 + addr % 2 ^ 17) }]) ∧
    Tab.get 0 u.life.acc.globals 14 = satAdd (Tab.get 0 s.life.acc.globals 14) 1 ∧
    u.psc.stepOn = s.psc.stepOn ∧ u.psc.step = s.psc.step ∧ u.psc.attempt = s.psc.attempt ∧ u.psc.committed = s.psc.committed ∧
    u.psc.abortDue = s.psc.abortDue ∧ u.rlp = s.rlp ∧ u.bmp = s.bmp ∧ u.staging = s.staging ∧ u.hostMem = s.hostMem ∧ u.vers = s.vers ∧
    u.mbx = s.mbx ∧ u.regs = s.regs ∧ u.cores = s.cores ∧ u.boot = s.boot ∧ u.sump.totals = s.sump.totals ∧
    (s.psc.stepOn = false ∨ s.psc.committed = true → u.psc = s.psc ∧ u.sump = s.sump ∧ t = u) ∧
    (s.psc.stepOn = true → s.psc.committed = false → u.psc.stopIssue = true ∧
      (∀ a, a < s.silicon.cls.arrays → (getArray u a).stopped = true) ∧
      (s.psc.abortDue = true → t = u) ∧
      (s.psc.abortDue = false → portServes s = false ∨ isRoot s = true → Aborts u t) ∧
      (s.psc.abortDue = false → portServes s = true → isRoot s = false →
        t = (if s.rlp.statsSent || s.rlp.notice then u else { u with rlp := { u.rlp with noticeDue := true } })))

/-- A MOVE slot starts one transfer with its descriptor's source, destination, partition, offset and length, as one operation; the
operation ends once no transfer of it is left, and not before (R193, R283, R285). The oldest waiting allocation of a stream is served
once its slots fit the free reserved slots, or these and loans that cover the whole shortfall: every slot is then held for its passage,
slots held before stay as they were held, of the new ones exactly the free reserved slots are taken first and only the rest is lent; nothing
else changes (R279, R280). -/
def Obligations.MovesAndAllocation : Prop :=
  (∀ (s : State) (slab : Fin 8) (sl : Slot) (rest : List Slot) (c : Instr) (kind : Nat),
    s.psc.accepted = sl :: rest → sl.index = 72 + slab.val → fld sl.word.toNat 63 60 = 1 → (sl.move s).kind = kind →
    (c = .moveHostToStaging slab ∧ kind = 1) ∨ (c = .moveStagingToHost slab ∧ kind = 2) ∨ (c = .moveHostToHost slab ∧ kind = 3) →
    let d := sl.move s
    exec c s = .next { s with
      psc := { s.psc with
        accepted := rest,
        ops := s.psc.ops ++ [{ id := sl.op, passage := sl.passage, slot := sl.index, kind := .move slab.val sl.descIndex,
                               writes := if kind = 1 then [byteSpan slab.val d.part d.soff d.len] else [] }] },
      bmp := { s.bmp with
        nextJob := s.bmp.nextJob + 1,
        jobs := s.bmp.jobs ++ [{ id := s.bmp.nextJob, kind := .move sl.op, reads := decide (kind ≠ 2), writes := decide (kind ≠ 1),
                                 src := d.src, dst := d.dst, slab := slab.val, part := d.part, off := d.soff, len := d.len,
                                 rdIssued := 0, rdDone := 0, wrIssued := 0, wrDone := 0, rdSince := s.bmp.nextJob,
                                 wrSince := s.bmp.nextJob, buf := [], failed := false, spec := false }] } }) ∧
  (∀ (s : State) (op slab desc : Nat) (o : Op), findOp s op = some o → o.kind = .move slab desc →
    ((∀ j, j ∈ s.bmp.jobs → j.kind ≠ .move op) → Runs (.moveComplete op) s (fun t => findOp t op = none ∧
      (∀ x, x ≠ op → findOp t x = findOp s x) ∧ t = { s with psc := { s.psc with ops := t.psc.ops } })) ∧
    (∀ j, j ∈ s.bmp.jobs → j.kind = .move op → exec (.moveComplete op) s = .next s)) ∧
  (∀ (s : State) (slab : Fin 8) (part : BitVec 5),
    (∀ (w : AllocReq) (rest : List AllocReq) (own loans : Nat),
      takeFirst (fun (w : AllocReq) => w.slab == slab.val && w.part == part.toNat) s.staging.waits = some (w, rest) →
      let new := w.slots.filter (fun x => !held s slab.val part.toNat x)
      allocPlan s slab.val part.toNat new.length false = some (own, loans) → w.slots.Nodup →
      Runs (.stagingAllocate slab part) s (fun t =>
        (∀ x, x ∈ w.slots → ∃ a, allocOf t (allocKey slab.val part.toNat x) = some a ∧ w.passage ∈ a.holders ∧
          (∀ b, allocOf s (allocKey slab.val part.toNat x) = some b →
            a.loan = b.loan ∧ a.fixed = b.fixed ∧ ∀ p, p ∈ b.holders → p ∈ a.holders) ∧
          (held s slab.val part.toNat x = false → a.holders = [w.passage] ∧ a.fixed = false ∧ a.spec = false)) ∧
        own + loans = new.length ∧ (∀ i x a, new[i]? = some x → allocOf t (allocKey slab.val part.toNat x) = some a →
          a.loan = decide (own ≤ i)) ∧
        (∀ k, (∀ x, x ∈ w.slots → k ≠ allocKey slab.val part.toNat x) → allocOf t k = allocOf s k) ∧
        t = { s with
          staging := { s.staging with alloc := t.staging.alloc, waits := rest }, ras := { s.ras with units := t.ras.units } })) ∧
    ((∀ w, w ∈ s.staging.waits → w.slab ≠ slab.val ∨ w.part ≠ part.toNat) → exec (.stagingAllocate slab part) s = .next s) ∧
    (∀ (w : AllocReq) (rest : List AllocReq),
      takeFirst (fun (w : AllocReq) => w.slab == slab.val && w.part == part.toNat) s.staging.waits = some (w, rest) →
      allocPlan s slab.val part.toNat (w.slots.filter (fun x => !held s slab.val part.toNat x)).length false = none →
      s.psc.window = [] → exec (.stagingAllocate slab part) s = .next s)) ∧
  (∀ (s : State) (slab part n own loans : Nat),
    let p := partOf s slab part
    let free := p.slots - heldIn s slab part false
    allocPlan s slab part n false = some (own, loans) ↔
      (n ≤ free ∧ own = n ∧ loans = 0) ∨ (free < n ∧ n ≤ p.slots ∧ heldIn s slab part true + (n - free) ≤ p.maxLoan ∧
        slabLoans s slab + (n - free) ≤ poolSlots s slab ∧ own = free ∧ loans = n - free))

/-- A SEND puts its tiles, in order, behind those that wait for the hop of its slab. The oldest tile of a hop is written at its
receiver and returns its token only when it can also go on and its slot is held; else it waits, its allocation in the order of its stream;
tiles of a hop keep their order; a hold is announced once (R280, R286 to R288, R290). -/
def Obligations.RopeTiles : Prop :=
  (∀ (s : State) (slab : Fin 8) (sl : Slot) (rest : List Slot),
    s.psc.accepted = sl :: rest → sl.index = 80 + slab.val → fld sl.word.toNat 63 60 = 1 →
    let d := sl.rope s
    Runs (.send slab) s (fun t => ∃ tiles : List RopeTile, tiles.length = d.tiles ∧
      (∀ j x, tiles[j]? = some x → x.owner = .move sl.op ∧ x.left = d.hops ∧ x.dpart = d.dpart ∧ x.dslot = d.dslot + j ∧
        x.bytes = slotBytes s slab.val d.spart (d.sslot + j) ∧ x.last = decide (j + 1 = d.tiles)) ∧
      hopTiles t slab.val ++ hopWaiting t slab.val = hopTiles s slab.val ++ (hopWaiting s slab.val ++ tiles) ∧
      (hopWaiting t slab.val = [] ∨ mayEnter t slab.val = false) ∧
      (hopTiles t slab.val).length ≤ max 4 (hopTiles s slab.val).length ∧
      (∀ h, h ≠ slab.val → hopTiles t h = hopTiles s h ∧ hopWaiting t h = hopWaiting s h) ∧
      t.psc = { s.psc with
        accepted := rest,
        ops := s.psc.ops ++ [{ id := sl.op, passage := sl.passage, slot := sl.index, kind := .send slab.val d.tiles,
                               writes := (ropePath slab.val d.hops).map (fun r =>
                                 byteSpan r d.dpart (65536 * d.dslot) (65536 * d.tiles)) }] } ∧
      t.staging = s.staging ∧ t.hostMem = s.hostMem ∧ t.vers = s.vers ∧ t.regs = s.regs ∧ t.cores = s.cores ∧ t.sump = s.sump)) ∧
  (∀ (s : State) (hop : Fin 8) (x : RopeTile) (rest : List RopeTile) (op : Nat) (o : Op),
    let h := hop.val
    let r := (h + 1) % 8
    let ours := fun (w : AllocReq) => w.slab = r ∧ w.part = x.dpart
    let holds := holdsAll s r x.dpart [x.dslot] o.passage
    let joins := { s with staging := { s.staging with
      waits := s.staging.waits ++ [{ slab := r, part := x.dpart, slots := [x.dslot], passage := o.passage, spec := false }] } }
    hopTiles s h = x :: rest → x.owner = .move op → findOp s op = some o →
    (1 < x.left → mayPass s r = false → exec (.ropeTileArrive hop) s = .next s) ∧
    (x.left ≤ 1 ∨ mayPass s r = true → holds = false →
      ((∃ w, w ∈ s.staging.waits ∧ ours w ∧ w.passage = o.passage) → exec (.ropeTileArrive hop) s = .next s) ∧
      ((∃ w, w ∈ s.staging.waits ∧ ours w) → (∀ w, w ∈ s.staging.waits → ours w → w.passage ≠ o.passage) →
        exec (.ropeTileArrive hop) s = .next joins) ∧
      ((∀ w, w ∈ s.staging.waits → ¬ ours w) → allocate s r x.dpart [x.dslot] o.passage false false = none → s.psc.window = [] →
        exec (.ropeTileArrive hop) s = .next joins)) ∧
    (x.left ≤ 1 ∨ mayPass s r = true →
      holds = true ∨ ((∀ w, w ∈ s.staging.waits → ¬ ours w) ∧ (allocate s r x.dpart [x.dslot] o.passage false false).isSome = true) →
      Runs (.ropeTileArrive hop) s (fun t =>
        let k := stKey r x.dpart (65536 * x.dslot)
        (∀ i b, x.bytes[i]? = some (some b) → stByte t (k + i) = b) ∧
        (∀ a, a < k ∨ k + x.bytes.length ≤ a → stByte t a = stByte s a) ∧
        hopTiles t h ++ hopWaiting t h = rest ++ hopWaiting s h ∧
        (1 < x.left → hopTiles t r = hopTiles s r ++ [{ x with left := x.left - 1 }] ∧ findOp t op = some o) ∧
        (x.left ≤ 1 → hopTiles t r = hopTiles s r ∧ findOp t op = (if x.last then none else some o)) ∧
        (s.rope.holding.getLsbD h = true → t.rope.holding.getLsbD h = false ∧ t.rope.holds = satAdd s.rope.holds 1) ∧
        t.hostMem = s.hostMem ∧ t.vers = s.vers ∧ t.regs = s.regs ∧ t.cores = s.cores ∧ t.sump = s.sump))) ∧
  (∀ (s : State) (hop : Fin 8), hopTiles s hop.val = [] → exec (.ropeTileArrive hop) s = .next s) ∧
  (∀ (s : State) (hop : Fin 8), s.rope.holding.getLsbD hop.val = false → hopTiles s hop.val ≠ [] ∨ hopWaiting s hop.val ≠ [] →
    Runs (.ropeHoldTimeout hop) s (fun t => t.rope.holding.getLsbD hop.val = true ∧
      (∀ h, h < 8 → h ≠ hop.val → t.rope.holding.getLsbD h = s.rope.holding.getLsbD h) ∧
      seqOf t (0x10 + hop.val) = seqOf s (0x10 + hop.val) + 1 ∧
      t = { s with
        rope := { s.rope with holding := t.rope.holding, since := t.rope.since }, evt := t.evt, intc := t.intc, ras := t.ras,
        life := t.life } ∧ exec (.ropeHoldTimeout hop) t = .next t))

/-- A channel's next request, that which has waited longest of those it may present: only with a request credit, under a tag the channel
does not hold, in whole 64-byte beats; it spends one request credit and, for a write, a write-transfer credit per two beats, as far as
there are any (R268 to R271, R276, R282, R323). A write that waits for a transfer credit takes the next one. A transfer whose request
straddles a window's edge fails first (R252). Host memory holds the bytes of a write from its first request on (R275; log 131). That what waited longest is told by the transfers' stamps is log 103, that any free tag may
be taken log 31, and that credits spent are counted by channel log 54: the model's choices. -/
def Obligations.MemoryRequests : Prop :=
  (∀ (s : State) (ch : Fin 64) (w : Want) (a : Nat),
    (∀ x, x ∈ wants s → straddles s x = false) → oldest ((wants s).filter (Want.fits s ch.val)) = some w →
    w.place s = some a → s.boot.stage ≠ 0xF → (getChan s ch.val).inService = true → 0 < (getChan s ch.val).req → freeTags s ch.val ≠ [] →
    Runs (.bmpRequest ch) s (fun t => ∃ r, t.bmp.reqs = s.bmp.reqs ++ [r] ∧ r.ch = ch.val ∧
      r.tag < (if s.boot.bmpVer = 1 then 256 else 1024) ∧ (∀ x, x ∈ s.bmp.reqs → x.ch = ch.val → x.tag ≠ r.tag) ∧
      r.addr = a / 64 * 64 ∧ r.beats = (a % 64 + w.len + 63) / 64 ∧ r.at_ = w.at_ ∧ r.len = w.len ∧ r.job = w.job.id ∧
      r.write = w.write ∧ r.attempts = w.attempts ∧ r.late = false ∧ r.pool = some w.job.pool ∧ r.start = a ∧ r.kept = w.kept ∧
      (w.write = true → w.again = false →
        (∀ i, i < w.len → hostByteOf t.hostMem (a + i) = (if w.job.fromBuf then (w.job.buf.byte? (w.job.src + w.at_ + i)).getD 0
          else stByte s (stKey w.job.slab w.job.part (w.job.off + w.at_ + i)))) ∧
        (∀ x, x < a ∨ a + w.len ≤ x → hostByteOf t.hostMem x = hostByteOf s.hostMem x)) ∧
      (w.write = false ∨ w.again = true → t.hostMem = s.hostMem) ∧
      (getChan t ch.val).req + 1 = (getChan s ch.val).req ∧ (getChan t ch.val).inService = true ∧
      (getChan t ch.val).reqOut = (getChan s ch.val).reqOut + 1 ∧
      (getChan t ch.val).wdata + (if w.write then (r.beats + 1) / 2 else 0) = (getChan s ch.val).wdata + r.wleft ∧
      (0 < r.wleft → (getChan t ch.val).wdata = 0) ∧
      (∀ c, c ≠ ch.val → getChan t c = getChan s c) ∧ (w.again = false → t.bmp.redo = s.bmp.redo) ∧
      t = { s with
        bmp := { s.bmp with
          chans := t.bmp.chans, reqs := t.bmp.reqs, redo := t.bmp.redo, jobs := t.bmp.jobs, nextJob := s.bmp.nextJob + 1 },
        ras := { s.ras with units := t.ras.units }, freeCtr := s.freeCtr + 1, hostMem := t.hostMem })) ∧
  (∀ (s : State) (ch : Fin 64), (∀ x, x ∈ wants s → straddles s x = false) →
    (getChan s ch.val).inService = false ∨ (getChan s ch.val).req = 0 ∨ s.boot.stage = 0xF ∨ freeTags s ch.val = [] ∨
      (∀ x, x ∈ wants s → Want.fits s ch.val x = false) → exec (.bmpRequest ch) s = .next s) ∧
  (∀ (s : State) (ch : Fin 64) (w : Want), (wants s).find? (straddles s) = some w → ∃ t : State, seqOf t 4 = seqOf s 4 + 1 ∧
    t.bmp = { s.bmp with jobs := s.bmp.jobs.map (fun j => if j.id = w.job.id then { j with failed := true } else j) } ∧
    ((∀ x, x ∈ wants t → straddles t x = false) → exec (.bmpRequest ch) s = exec (.bmpRequest ch) t)) ∧
  (∀ (s : State) (ch : Fin 64) (r : BmpReq), s.boot.interval = false → (getChan s ch.val).inService = true →
    s.bmp.reqs.find? (fun x => x.ch == ch.val && decide (0 < x.wleft)) = some r → Runs (.bmpWdataCredit ch) s (fun t =>
      t.bmp.reqs = mapFirst (fun x => x.ch == ch.val && decide (0 < x.wleft)) (fun x => { x with wleft := x.wleft - 1 }) s.bmp.reqs ∧
      getChan t ch.val = { getChan s ch.val with wdataOut := (getChan s ch.val).wdataOut - 1 + 1 } ∧
      (∀ c, c ≠ ch.val → getChan t c = getChan s c) ∧
      t = { s with bmp := { s.bmp with chans := t.bmp.chans, reqs := t.bmp.reqs }, ras := { s.ras with units := t.ras.units } }))

/-- Responses and timeouts of requests: data of a read stands in staging, host memory holds them but for what was written behind the read,
a write is complete, and no other byte changes; a retryable error or a timeout counts a transient fault and tries again; a response that
comes late is only counted. A request of a move or fetch before the commit, or of an owned tile, that ends with code 2 or more, or whose
fourth attempt fails, completes nothing and is an uncorrectable error: its event, then what R333 sets out, the transfer given up; a code of 3
has an event of its own and counts no fault (R270, R273, R274, R333). That read data are host memory's from then on is log 2, that a timeout
gives the stream credit back log 66, the bytes of a write from its request on and of a failed one log 131, the error word log 33: the model's
choices. -/
def Obligations.MemoryResponses : Prop :=
  (∀ (s : State) (ch : Fin 64) (tag : BitVec 10) (code : BitVec 3) (data : List Byte) (r : BmpReq) (rest : List BmpReq),
    takeFirst (fun (r : BmpReq) => r.ch == ch.val && r.tag == tag.toNat) s.bmp.reqs = some (r, rest) →
    (r.late = true → exec (.bmpResponse ch tag code data) s =
      .next { s with bmp := { s.bmp with reqs := rest, lateRsp := satAdd s.bmp.lateRsp 1 } }) ∧
    (∀ (j : Job) (op a : Nat), r.late = false → s.bmp.jobs.find? (fun j => j.id == r.job) = some j → j.kind = .move op →
      (code = 0 → r.write = false → j.reads = true → j.writes = false → r.start = a → Mem.wf r.kept →
        r.addr = a / 64 * 64 → a + r.len ≤ r.addr + 64 * r.beats → data.length = 64 * r.beats →
        Runs (.bmpResponse ch tag code data) s (fun t =>
          (∀ i, i < r.len → some (stByte t (stKey j.slab j.part (j.off + r.at_) + i)) = data[a % 64 + i]?) ∧
          (∀ x, x < stKey j.slab j.part (j.off + r.at_) ∨ stKey j.slab j.part (j.off + r.at_) + r.len ≤ x → stByte t x = stByte s x) ∧
          (∀ i, i < 64 * r.beats → r.kept.byte? (r.addr + i) = none → some (hostByteOf t.hostMem (r.addr + i)) = data[i]?) ∧
          (∀ x b, r.kept.byte? x = some b → hostByteOf t.hostMem x = b) ∧
          (∀ x, x < r.addr ∨ r.addr + 64 * r.beats ≤ x → r.kept.byte? x = none → hostByteOf t.hostMem x = hostByteOf s.hostMem x) ∧
          t.bmp.reqs = rest ∧ (j.len ≤ j.rdDone + r.len → ∀ k, k ∈ t.bmp.jobs → k.id ≠ j.id) ∧
          (j.rdDone + r.len < j.len → ∃ k, k ∈ t.bmp.jobs ∧ k = { j with rdDone := j.rdDone + r.len }) ∧
          t.psc = s.psc ∧ t.vers = s.vers ∧ t.regs = s.regs ∧ t.cores = s.cores ∧ t.sump = s.sump)) ∧
      (code = 0 → r.write = true → j.reads = false → j.writes = true →
        Runs (.bmpResponse ch tag code data) s (fun t => t.hostMem = s.hostMem ∧ t.staging = s.staging ∧
          t.bmp.reqs = rest ∧ (j.len ≤ j.wrDone + r.len → ∀ k, k ∈ t.bmp.jobs → k.id ≠ j.id) ∧
          (j.wrDone + r.len < j.len → ∃ k, k ∈ t.bmp.jobs ∧ k = { j with wrDone := j.wrDone + r.len }) ∧
          t.psc = s.psc ∧ t.vers = s.vers ∧ t.regs = s.regs ∧ t.cores = s.cores ∧ t.sump = s.sump)) ∧
      (code = 1 → r.attempts < 3 → leakyCount s 0 ch.val + 1 < faultLimit s 0 → Runs (.bmpResponse ch tag code data) s (fun t =>
        t.bmp = { s.bmp with
          reqs := rest, redo := s.bmp.redo ++ [{ r with attempts := r.attempts + 1, since := s.bmp.nextJob }],
          nextJob := s.bmp.nextJob + 1 } ∧
        leakyCount t 0 ch.val = leakyCount s 0 ch.val + 1 ∧ t = { s with bmp := t.bmp, ras := t.ras, life := t.life }))) ∧
    (∀ j : Job, r.late = false → s.bmp.jobs.find? (fun j => j.id == r.job) = some j → j.kind = .image → r.write = false → 2 ≤ code.toNat →
      Runs (.bmpResponse ch tag code data) s (fun t => seqOf t 4 = seqOf s 4 + 1 ∧ leakyCount t 0 ch.val = leakyCount s 0 ch.val ∧
        (∀ k, k ∈ t.bmp.jobs → k.id = j.id → k.failed = true) ∧ t.staging = s.staging ∧ t.hostMem = s.hostMem ∧ t.psc = s.psc ∧
        ((waitingRecords s 4).length < 8 → waitingRecords t 4 = waitingRecords s 4 ++
          [{ source := 4, seq := seqOf s 4, time := s.clock.ts,
             code := BitVec.ofNat 16 (if code = 3 then Ev.bmpAddressError else Ev.bmpUncorrectable),
             payload := BitVec.ofNat 24 (ch.val * 2 ^ 18 + r.tag % 2 ^ 10 * 2 ^ 8) }])))) ∧
  (∀ (s : State) (ch : Fin 64) (tag : BitVec 10) (r : BmpReq) (j : Job),
    s.bmp.jobs.find? (fun j => j.id == r.job) = some j →
    (s.psc.committed = false ∧ (∃ k, j.kind = .move k)) ∨ (s.psc.committed = false ∧ ∃ p e, j.kind = .fetch p e) ∨ j.kind = .put none →
    let fails := fun (ev faults : Nat) (reqs : List BmpReq) (t : State) => ∃ u : State, StepFails u t 8 j.slab (Config.errorWord 8 r.addr) ∧
      seqOf u 4 = seqOf s 4 + 1 ∧ ((waitingRecords s 4).length < 8 → waitingRecords u 4 = waitingRecords s 4 ++
        [{ source := 4, seq := seqOf s 4, time := s.clock.ts, code := BitVec.ofNat 16 ev,
           payload := BitVec.ofNat 24 (r.ch % 2 ^ 6 * 2 ^ 18 + r.tag % 2 ^ 10 * 2 ^ 8) }]) ∧
      leakyCount u 0 r.ch = leakyCount s 0 r.ch + faults ∧ u.psc = s.psc ∧ u.rlp = s.rlp ∧ u.staging = s.staging ∧ u.sump = s.sump ∧
      u.bmp = { s.bmp with
        reqs := reqs, jobs := s.bmp.jobs.filter (fun x => x.id != j.id), redo := s.bmp.redo.filter (fun x => x.job != j.id) } ∧
      (r.write = false → u.hostMem = s.hostMem) ∧
      (Mem.wf r.kept → (∀ x b, r.write = true → r.kept.byte? x = some b → hostByteOf u.hostMem x = b) ∧
        (∀ x, x < r.start ∨ r.start + r.len ≤ x → r.kept.byte? x = none → hostByteOf u.hostMem x = hostByteOf s.hostMem x))
    (∀ rest, takeFirst (fun (r : BmpReq) => r.ch == ch.val && r.tag == tag.toNat) s.bmp.reqs = some (r, rest) → r.late = false →
      (∀ (code : BitVec 3) (data : List Byte), 2 ≤ code.toNat → Runs (.bmpResponse ch tag code data) s
        (fails (if code = 3 then Ev.bmpAddressError else Ev.bmpUncorrectable) 0 rest)) ∧
      (∀ data : List Byte, 3 ≤ r.attempts → leakyCount s 0 r.ch + 1 < faultLimit s 0 →
        Runs (.bmpResponse ch tag 1 data) s (fails Ev.bmpUncorrectable 1 rest))) ∧
    (s.bmp.reqs.find? (fun r => r.ch == ch.val && r.tag == tag.toNat && !r.late) = some r → 3 ≤ r.attempts →
      leakyCount s 0 r.ch + 1 < faultLimit s 0 → Runs (.bmpTimeout ch tag) s (fails Ev.bmpUncorrectable 1
        (mapFirst (fun x => x == r) (fun x => { x with late := true, pool := none }) s.bmp.reqs)))) ∧
  (∀ (s : State) (unit slab addr : Nat), StepFails s (uncorrectable s unit slab addr) unit slab addr) ∧
  (∀ (s : State) (ch : Fin 64) (tag : BitVec 10) (code : BitVec 3) (data : List Byte),
    (∀ r, r ∈ s.bmp.reqs → r.ch ≠ ch.val ∨ r.tag ≠ tag.toNat) →
    exec (.bmpResponse ch tag code data) s = .next s ∧ exec (.bmpTimeout ch tag) s = .next s) ∧
  (∀ (s : State) (ch : Fin 64) (tag : BitVec 10) (r : BmpReq),
    s.bmp.reqs.find? (fun r => r.ch == ch.val && r.tag == tag.toNat && !r.late) = some r → r.attempts < 3 →
    leakyCount s 0 ch.val + 1 < faultLimit s 0 → (∃ j, j ∈ s.bmp.jobs ∧ j.id = r.job) → Runs (.bmpTimeout ch tag) s (fun t =>
      t.bmp = { s.bmp with
        reqs := mapFirst (fun x => x == r) (fun x => { x with late := true, pool := none }) s.bmp.reqs,
        redo := s.bmp.redo ++ [{ r with attempts := r.attempts + 1, since := s.bmp.nextJob }], nextJob := s.bmp.nextJob + 1 } ∧
      leakyCount t 0 ch.val = leakyCount s 0 ch.val + 1 ∧ t = { s with bmp := t.bmp, ras := t.ras, life := t.life }))

/-- The fall of `bmpNN_up` retires a channel that is not the last in service: no further request on it, every tag it holds is freed and
its credits, in hand and spent, and its requests' stream credits are counted as reclaimed; its incomplete requests of transfers that go on
are to be issued again without a new attempt, and the interleave loses it (R277, R282, R332; log 54). -/
def Obligations.ChannelRetirement : Prop :=
  (∀ (s : State) (ch : Fin 64), (getChan s ch.val).inService = true → 1 < (channels s).length → Runs (.bmpChannelDown ch) s (fun t =>
    let mine := s.bmp.reqs.filter (fun r => r.ch == ch.val)
    let live := mine.filter (fun r => !r.late && s.bmp.jobs.any (fun j => j.id == r.job))
    let c := getChan s ch.val
    let n := mine.length + (mine.filter (fun r => r.pool.isSome)).length + c.req + c.wdata + (c.reqOut + c.wdataOut)
    let undated := fun (r : BmpReq) => { r with since := 0 }
    channels t = (channels s).filter (fun c => c != ch.val) ∧
    getChan t ch.val = { inService := false, req := 0, wdata := 0, counted := 0, reqOut := 0, wdataOut := 0 } ∧
    (∀ c, c ≠ ch.val → getChan t c = getChan s c) ∧ t.bmp.reqs = s.bmp.reqs.filter (fun r => r.ch != ch.val) ∧
    (∃ l, t.bmp.redo = s.bmp.redo ++ l ∧ l.map undated = live.map undated) ∧ t.bmp.jobs = s.bmp.jobs ∧ t.bmp.reclaimed = satAdd s.bmp.reclaimed n ∧
    t.bmp.retired.getLsbD ch.val = true ∧ seqOf t 4 = seqOf s 4 + 1 ∧ seqOf t 6 = seqOf s 6 + 1 ∧
    ((waitingRecords s 4).length < 8 → waitingRecords t 4 = waitingRecords s 4 ++
      [{ source := 4, seq := seqOf s 4, time := s.clock.ts, code := BitVec.ofNat 16 Ev.bmpChannelRetired,
         payload := BitVec.ofNat 24 (ch.val * 2 ^ 18) }]) ∧
    t.pins = { s.pins with chanUp := t.pins.chanUp } ∧ t.pins.chanUp.getLsbD ch.val = false ∧ t.hostMem = s.hostMem ∧
    t.staging = s.staging ∧ t.psc = s.psc ∧ t.vers = s.vers ∧ t.regs = s.regs ∧ t.cores = s.cores)) ∧
  (∀ (s : State) (ch : Fin 64), (getChan s ch.val).inService = false ∨ (channels s).length ≤ 1 → Runs (.bmpChannelDown ch) s (fun t =>
    t.pins.chanUp.getLsbD ch.val = false ∧ t = { s with pins := { s.pins with chanUp := t.pins.chanUp } }))

/-- R330: a lane that falls after negotiation is retired at once, with `lane_retired`, and stays out of service when it comes up again;
with its last lane its channel is retired, and its credits are counted as reclaimed (R328, R332; which units those are: log 54, log 38). -/
def Obligations.LaneRetirement : Prop :=
  (∀ (s : State) (lane : Fin 32), s.rlp.lanes.getLsbD lane.val = true → Runs (.laneDown lane) s (fun t =>
    t.rlp.lanes.getLsbD lane.val = false ∧
    ((waitingRecords s 5).length < 8 → waitingRecords t 5 = waitingRecords s 5 ++
      [{ source := 5, seq := seqOf s 5, time := s.clock.ts, code := BitVec.ofNat 16 Ev.laneRetired,
         payload := BitVec.ofNat 24 (lane.val / 16 * 2 ^ 23 + lane.val) }]) ∧ seqOf t 5 = seqOf s 5 + 1 ∧
    (∀ l v, Runs (.rlpLaneUp l v) t (fun u => u.rlp = t.rlp)) ∧
    ((∃ l, l < 32 ∧ l ≠ lane.val ∧ l / 16 = lane.val / 16 ∧ s.rlp.lanes.getLsbD l = true) →
      (∀ l, l < 32 → l ≠ lane.val → t.rlp.lanes.getLsbD l = s.rlp.lanes.getLsbD l) ∧ t.rlp.chans = s.rlp.chans ∧
      t.rlp.backlog = s.rlp.backlog) ∧
    ((∀ l, l < 32 → l ≠ lane.val → l / 16 = lane.val / 16 → s.rlp.lanes.getLsbD l = false) →
      (getRlp t (lane.val / 16)).retired = true ∧ (∀ l, l < 32 → l / 16 = lane.val / 16 → t.rlp.lanes.getLsbD l = false) ∧
      ((getRlp s (lane.val / 16)).retired = false → seqOf t 6 = seqOf s 6 + 1 ∧
        t.rlp.reclaimed = satAdd s.rlp.reclaimed
          ((getRlp s (lane.val / 16)).tx + (getRlp s (lane.val / 16)).txOut + (getRlp s (lane.val / 16)).rx) ∧
        (getRlp t (lane.val / 16)).tx = 0 ∧ (getRlp t (lane.val / 16)).txOut = 0 ∧ (getRlp t (lane.val / 16)).rx = 0)) ∧
    t.psc = s.psc ∧ t.hostMem = s.hostMem ∧ t.staging = s.staging ∧ t.regs = s.regs ∧ t.cores = s.cores ∧ t.vers = s.vers)) ∧
  (∀ (s : State) (lane : Fin 32), s.rlp.lanes.getLsbD lane.val = false → Runs (.laneDown lane) s (fun t =>
    t.pins.laneUp.getLsbD lane.val = false ∧ t = { s with pins := { s.pins with laneUp := t.pins.laneUp } }))

/-- The frames a channel has yet to send, in order: its queue, then those that wait for room in it (R250, R267). -/
def outgoing (s : State) (ch : Nat) : List Frame :=
  (getRlp s ch).queue.map (·.2) ++ (s.rlp.backlog.filter (fun x => x.1 == ch)).map (fun x => x.2.2)

/-- A frame that a FRAME slot of a kind sends of a tile: its receiver and payload (R251, R258, R259). -/
def SendsFrame (s : State) (kind : Nat) (d : CollDesc) (cx : Ctx) (t dst : Nat) (p : List Byte) : Prop :=
  let h := rgroup s d.group
  let x := gtensor s h d.tensor
  let u := x.base + t
  let j := treePos h u h.self_
  (kind = 1 ∧ dst = u % h.size ∧ dst ≠ h.self_ ∧
    let off := cx.offset + (t - d.t0) * cx.pitch
    let n := leNat (sourceBytes s d.slab cx.part off 4)
    n ≤ h.kmax ∧ p = sourceBytes s d.slab cx.part off (4 + n * (2 + listBytes (streamOf s x.gstream).fmt))) ∨
  (kind = 2 ∧ j ≠ 0 ∧ treeTop h j = 0 ∧ dst = (u % h.size + (j - 2 ^ twoPower j)) % h.size ∧
    p = ofWords ((toWords (sourceTile s d.slab cx (t - d.t0) 9)).map (fun w => BitVec.ofNat 32 (toF32 (ofF32 w.toNat))))) ∨
  (kind = 3 ∧ u % h.size = h.self_ ∧ dst < h.size ∧ dst ≠ h.self_ ∧
    p = sourceTile s d.slab cx (t - d.t0) (streamOf s cx.stream).fmt)

/-- FRAME and STATS slots: exactly the frames of the slot's kind for its unmasked tiles stand behind those the channel has yet to send,
and the operation counts them; a leaf that takes children first stands as a node of its tree; STATS forms this rank's fragments, once, and
takes those buffered; the root's, with the last fragment it lacks, decides the commit, which follows where every passage but the UPD ones has
ended. Sending spends a credit a beat, a frame goes whole and in order; a credit pulse adds a credit (R19, R250, R251, R253, R258 to R261,
R265, R267, R313). That a dense leaf's value goes up as the FP32 code of the number it reads, and the channel of a frame whose slot names
none that serves, is the model's choice (log 78). -/
def Obligations.CollectiveSlots : Prop :=
  (∀ (s : State) (ch : Fin 2) (sl : Slot) (rest : List Slot) (c : Instr) (kind : Nat),
    s.psc.accepted = sl :: rest → sl.index = 96 + ch.val → fld sl.word.toNat 63 60 = 1 → (sl.coll s).kind = kind →
    (c = .frameSparse ch ∧ kind = 1) ∨ (c = .frameDenseLeaf ch ∧ kind = 2) ∨ (c = .frameGather ch ∧ kind = 3) →
    (∀ x, x ∈ s.rlp.backlog → x.1 ≠ 2) → findOp s sl.op = none →
    let d := sl.coll s
    let h := rgroup s d.group
    let x := gtensor s h d.tensor
    let cx := ctxOf s sl.passage d.ctx
    let wait := if kind = 3 ∧ d.waitAll = true then some d.group else none
    let here := fun (t : Nat) => d.t0 ≤ t ∧ t < d.t0 + d.ntiles ∧ tileMasked s x t = false
    Runs c s (fun t => ∃ fs, outgoing t (sendChannel s ch.val) = outgoing s (sendChannel s ch.val) ++ fs ∧
      outgoing t (1 - sendChannel s ch.val) = outgoing s (1 - sendChannel s ch.val) ∧
      (∀ f, f ∈ fs → f.typ = kind ∧ f.group = d.group ∧ f.src = h.self_ ∧ f.tensor = d.tensor ∧ f.cfg = h.cfg ∧
        f.step = s.psc.step.toNat ∧ f.attempt = s.psc.attempt.toNat) ∧
      (∀ k dst p, (∃ f, f ∈ fs ∧ f.tile = k ∧ f.dst = dst ∧ f.payload = p) ↔ here k ∧ SendsFrame s kind d cx k dst p) ∧
      (kind = 2 → ∀ k, here k → treeTop h (treePos h (x.base + k) h.self_) ≠ 0 → ∃ v, v ∈ t.rlp.dense ∧ v.group = d.group ∧
        v.u = x.base + k ∧ v.level = 0 ∧
        v.vals = (toWords (sourceTile s d.slab cx (k - d.t0) 9)).map (fun w => BitVec.ofNat 32 (toF32 (ofF32 w.toNat)))) ∧
      (fs ≠ [] → ∃ o, findOp t sl.op = some o ∧ o.passage = sl.passage ∧ o.slot = sl.index ∧ o.kind = .frames ch.val fs.length wait) ∧
      (fs = [] → wait = none → findOp t sl.op = none) ∧
      t.psc.accepted = rest ∧ t.sump = s.sump ∧ t.staging = s.staging ∧ t.regs = s.regs ∧ t.cores = s.cores ∧ t.img = s.img)) ∧
  (∀ (s : State) (ch : Fin 2) (sl : Slot) (rest : List Slot),
    s.psc.accepted = sl :: rest → sl.index = 96 + ch.val → fld sl.word.toNat 63 60 = 2 →
    let b := descBytes s sl.passage sl.descIndex
    let first := fieldAt b 2 2
    let n := fieldAt b 4 4 % 2 ^ 13
    let forms := fun (t : State) => t.rlp.range = some (first, n) ∧
      (∀ i, i < (n + 1023) / 1024 → List.lookup i t.rlp.ownFrag = some (ownFragment s first n i)) ∧
      (∀ f, f ∈ t.rlp.fbuf ↔ f ∈ s.rlp.fbuf ∧ f.typ ≠ 4) ∧
      t.psc.accepted = rest ∧ t.rlp.chans = s.rlp.chans ∧ t.rlp.backlog = s.rlp.backlog ∧ t.sump = s.sump ∧ t.staging = s.staging ∧
      t.hostMem = s.hostMem ∧ t.gov = s.gov ∧ t.regs = s.regs ∧ t.cores = s.cores
    (s.rlp.ownFrag ≠ [] → exec (.stats ch) s = .next { s with psc := { s.psc with accepted := rest } }) ∧
    (s.rlp.ownFrag = [] → 1 ≤ n → findOp s sl.op = none → isRoot s = false → Runs (.stats ch) s (fun t => forms t ∧
      ∃ o, findOp t sl.op = some o ∧ o.passage = sl.passage ∧ o.kind = .stats ch.val ((n + 1023) / 1024))) ∧
    (s.rlp.ownFrag = [] → 1 ≤ n → findOp s sl.op = none → isRoot s = true →
      (∃ r, r ∈ treeChildren s ∧ (∀ f, f ∈ s.rlp.fbuf → f.typ = 4 → f.src ≠ r) ∧ List.lookup (r * 4) s.rlp.childFrag = none) →
      Runs (.stats ch) s (fun t => forms t ∧ findOp t sl.op = none ∧ t.psc.committed = s.psc.committed)) ∧
    (s.rlp.ownFrag = [] → 1 ≤ n → findOp s sl.op = none → isRoot s = true → treeChildren s = [] → s.psc.stepOn = true →
      s.psc.committed = false → s.psc.abortDue = false → s.rlp.outFrag = [] → allDone s (· != 4) none = true →
      Runs (.stats ch) s (Commits s none))) ∧
  (∀ (s : State) (ch : Fin 2) (op : Nat) (f : Frame) (rest : List (Nat × Frame)),
    (getRlp s ch.val).queue = (op, f) :: rest → rlpServes s ch.val = true →
    let c := getRlp s ch.val
    let total := (52 + f.payload.length + 511) / 512
    (c.beats + c.tx < total → Runs (.frameTransmit ch) s (fun t =>
      getRlp t ch.val = { c with
        tx := 0, txOut := c.txOut + c.tx, beats := c.beats + c.tx, dest := if c.tx = 0 ∨ c.beats ≠ 0 then c.dest else frameDest s f } ∧
      (∀ k, k ≠ ch.val → getRlp t k = getRlp s k) ∧
      t = { s with rlp := { s.rlp with chans := t.rlp.chans }, ras := { s.ras with units := t.ras.units } })) ∧
    (c.beats ≤ total → total ≤ c.beats + c.tx → Runs (.frameTransmit ch) s (fun t =>
      outgoing t ch.val = (outgoing s ch.val).tail ∧ (getRlp t ch.val).tx + (total - c.beats) = c.tx ∧ (getRlp t ch.val).beats = 0 ∧
      (getRlp t ch.val).txOut = c.txOut + (total - c.beats) ∧ (getRlp t ch.val).rx = c.rx ∧
      (∀ k, k ≠ ch.val → getRlp t k = getRlp s k) ∧
      (∀ o n g k, findOp s op = some o → o.kind = .frames k (n + 1) g →
        (n = 0 → g = none → findOp t op = none) ∧
        (n ≠ 0 → ∃ o', findOp t op = some o' ∧ o'.passage = o.passage ∧ o'.kind = .frames k n g)) ∧
      (∀ o n k, findOp s op = some o → o.kind = .stats k (n + 1) →
        (n = 0 → findOp t op = none) ∧ (n ≠ 0 → ∃ o', findOp t op = some o' ∧ o'.passage = o.passage ∧ o'.kind = .stats k n)) ∧
      t = { s with
        rlp := { s.rlp with chans := t.rlp.chans, backlog := t.rlp.backlog }, ras := { s.ras with units := t.ras.units },
        psc := { s.psc with ops := t.psc.ops } }))) ∧
  (∀ (s : State) (ch : Fin 2), (getRlp s ch.val).queue = [] ∨ rlpServes s ch.val = false → exec (.frameTransmit ch) s = .next s) ∧
  (∀ (s : State) (ch : Fin 2),
    ((getRlp s ch.val).retired = true ∨ s.boot.stage = 0 → exec (.rlpTxCredit ch) s = .next s) ∧
    ((getRlp s ch.val).retired = false → s.boot.stage ≠ 0 → Runs (.rlpTxCredit ch) s (fun t =>
      getRlp t ch.val = { getRlp s ch.val with tx := (getRlp s ch.val).tx + 1, txOut := (getRlp s ch.val).txOut - 1 } ∧
      (∀ k, k ≠ ch.val → getRlp t k = getRlp s k) ∧
      t = { s with rlp := { s.rlp with chans := t.rlp.chans }, ras := { s.ras with units := t.ras.units } })))

/-- A received frame, through the checks of R255 in their order, and the response it gets (R266): one with a bad CRC or an error counts a
transient fault; a stale one is counted; one that disagrees raises `frame_mismatch` once a step; one seen before and one too early change
nothing, as one without room; a masked one raises `mask_mismatch`; the expected one is taken, as its type says: with the last fragment of a
commit outcome, and at the root with the last fragment of statistics, the step commits (R14, R19 to R21, R124, R255, R259 to R261, R264 to
R266). That the reserved fields are reported before the checks is log 75, the group 0xFF of a forwarded notice log 74, what frames between
steps meet log 76, the channel that a notice or outcome goes on by log 78, and that the masks of every rank on a frame's way count log 118:
the model's choices. -/
def Obligations.ReceivedFrames : Prop :=
  ∀ (s : State) (ch : Fin 2) (err : Bool) (bytes : List Byte) (c : Instr) (typ : Nat),
    (c = .receiveSparseList ch err bytes ∧ typ = 1) ∨ (c = .receiveDensePartial ch err bytes ∧ typ = 2) ∨
      (c = .receiveGatherTile ch err bytes ∧ typ = 3) ∨ (c = .receiveStatistics ch err bytes ∧ typ = 4) ∨
      (c = .receiveAbortNotice ch err bytes ∧ typ = 5) ∨ (c = .receiveOutcome ch err bytes ∧ typ = 6) →
    let f := Frame.ofBytes bytes
    let k := seqKey f.group f.src
    let fresh := f.step % 2 ^ 40 = s.psc.step.toNat ∧ f.attempt = s.psc.attempt.toNat
    let r := if f.reserved then frameReserved s else s
    let m := if f.group = 0xFF then r else noteMask r (gtensor s (rgroup s f.group) f.tensor).mask
    let quiet := fun (t : State) => t = { r with rlp := t.rlp, ras := { r.ras with units := t.ras.units } }
    let answers := fun (t : State) (nack : Bool) => getRlp t ch.val = { getRlp s ch.val with resp := some nack } ∧
      (∀ k, k ≠ ch.val → getRlp t k = getRlp s k)
    let onlyAnswers := fun (t : State) (nack : Bool) => answers t nack ∧ t.rlp = { s.rlp with chans := t.rlp.chans }
    (s.boot.rlpVer = 0 ∨ rlpServes s ch.val = false → exec c s = .next s) ∧
    (s.boot.rlpVer ≠ 0 → rlpServes s ch.val = true →
      (err = true ∨ frameCrcOk bytes = false → leakyCount s 1 ch.val + 1 < faultLimit s 1 → Runs c s (fun t => onlyAnswers t true ∧
        leakyCount t 1 ch.val = leakyCount s 1 ch.val + 1 ∧ t = { s with rlp := t.rlp, ras := t.ras, life := t.life })) ∧
      (err = false → frameCrcOk bytes = true → f.typ = typ →
        (¬ fresh → Runs c s (fun t => answers t false ∧
          t.rlp = { s.rlp with chans := t.rlp.chans, stale := satAdd s.rlp.stale 1 } ∧ quiet t)) ∧
        (fresh → frameAgrees s f = false → Runs c s (fun t => onlyAnswers t false ∧
          (s.psc.onceStep.contains (0, Ev.frameMismatch, 0) = true → quiet t) ∧
          (s.psc.onceStep.contains (0, Ev.frameMismatch, 0) = false → seqOf t 5 = seqOf r 5 + 1 ∧
            t = { r with
              psc := { s.psc with onceStep := (0, Ev.frameMismatch, 0) :: s.psc.onceStep }, evt := t.evt, intc := t.intc, ras := t.ras,
              life := t.life, rlp := t.rlp }))) ∧
        (fresh → frameAgrees s f = true → f.pseq < Tab.get 0 s.rlp.expect k → Runs c s (fun t => onlyAnswers t false ∧ quiet t)) ∧
        (fresh → frameAgrees s f = true → Tab.get 0 s.rlp.expect k < f.pseq → Runs c s (fun t => onlyAnswers t true ∧ quiet t)) ∧
        (fresh → frameAgrees s f = true → f.pseq = Tab.get 0 s.rlp.expect k → frameRoom s f = false →
          Runs c s (fun t => onlyAnswers t true ∧ quiet t)) ∧
        (fresh → frameAgrees s f = true → f.pseq = Tab.get 0 s.rlp.expect k → frameRoom s f = true → maskedFrame s f = true →
          Runs c s (fun t => answers t false ∧ seqOf t 5 = seqOf m 5 + 1 ∧ Tab.get 0 t.rlp.expect k = f.pseq + 1 ∧
            t.rlp = { s.rlp with chans := t.rlp.chans, expect := t.rlp.expect } ∧
            t = { m with evt := t.evt, intc := t.intc, ras := t.ras, life := t.life, rlp := t.rlp })) ∧
        (fresh → frameAgrees s f = true → f.pseq = Tab.get 0 s.rlp.expect k → frameRoom s f = true → maskedFrame s f = false →
          (typ = 1 ∨ typ = 2 ∨ (typ = 4 ∧ s.rlp.ownFrag = []) → Runs c s (fun t => answers t false ∧ Tab.get 0 t.rlp.expect k = f.pseq + 1 ∧
            t.rlp = { s.rlp with chans := t.rlp.chans, expect := t.rlp.expect, fbuf := s.rlp.fbuf ++ [f] } ∧
            t = { m with rlp := t.rlp, ras := { m.ras with units := t.ras.units } })) ∧
          (typ = 4 → s.rlp.ownFrag ≠ [] → isRoot s = false → Runs c s (fun t => answers t false ∧
            List.lookup (f.src * 4 + f.tile % 4) t.rlp.childFrag = some (readFrag s (f.tile % 4) f.payload) ∧
            t.rlp = { s.rlp with chans := t.rlp.chans, expect := t.rlp.expect, childFrag := t.rlp.childFrag } ∧ quiet t)) ∧
          (typ = 4 → s.rlp.ownFrag ≠ [] → isRoot s = true → s.psc.stepOn = true → s.psc.committed = false → s.psc.abortDue = false →
            s.rlp.outFrag = [] → ∀ first n, s.rlp.range = some (first, n) →
            let put := { s with rlp := { s.rlp with
              childFrag := s.rlp.childFrag.put (f.src * 4 + f.tile % 4) (readFrag s (f.tile % 4) f.payload) } }
            ((∃ i, i < fragCount n ∧ mergedFragment put i = none) → Runs c s (fun t => answers t false ∧
              t.rlp = { s.rlp with chans := t.rlp.chans, expect := t.rlp.expect, childFrag := put.rlp.childFrag } ∧ quiet t)) ∧
            ((∀ i, i < fragCount n → (mergedFragment put i).isSome = true) → allDone s (· != 4) none = true →
              Runs c s (Commits s none))) ∧
          (typ = 3 →
            let x := gtensor s (rgroup s f.group) f.tensor
            let base := verBuffer s x.tensor (nextBuffer s x.tensor) (f.level == 1)
            let key := gatherKey f.group f.tensor f.tile f.level
            (verOk s x.tensor = true → Runs c s (fun t => answers t false ∧ Tab.get 0 t.rlp.expect k = f.pseq + 1 ∧
              t.rlp.fbuf = s.rlp.fbuf ++ [f] ∧ (getVer t x.tensor).updating = true ∧
              (match x.ordered f.level f.tile with
               | (r0, c0, rows, cols) => ∃ new, t.bmp.jobs = s.bmp.jobs ++ new ∧ new.length = min 256 (rows - r0) ∧
                   ∀ i j, new[i]? = some j → j.kind = .put (some key) ∧ j.writes = true ∧ j.reads = false ∧ j.wrIssued = 0 ∧ j.src = 0 ∧
                     j.dst = rowPlace base cols f.fmt (r0 + i) c0 / 2 ∧ j.len = (min 256 (cols - c0) * fmtNibs f.fmt + 1) / 2 ∧
                     (fmtBits f.fmt = 8 → ∀ q, q < min 256 (cols - c0) → j.buf.byte? q = f.payload[256 * i + q]?)) ∧
              t.hostMem = s.hostMem ∧ t.sump = s.sump ∧ t.staging = s.staging ∧ t.regs = s.regs ∧ t.cores = s.cores)) ∧
            (verOk s x.tensor = false → s.psc.committed = false → Runs c s (fun t => answers t false ∧ t.bmp.jobs = s.bmp.jobs ∧
              t.hostMem = s.hostMem ∧ t.vers = s.vers ∧ t.sump = s.sump ∧ t.staging = s.staging ∧ t.regs = s.regs ∧
              t.cores = s.cores))) ∧
          (typ = 5 → isRoot s = false → s.rlp.notice = false → Runs c s (fun t => t.rlp.notice = true ∧
            (getRlp t ch.val).resp = some false ∧
            (∃ g, outgoing t (sendChannel s 0) = outgoing s (sendChannel s 0) ++ [g] ∧ g.typ = 5 ∧ g.dst = treeParent s ∧
              g.payload = []) ∧ t.psc = s.psc ∧ quiet t)) ∧
          (typ = 5 → isRoot s = false → s.rlp.notice = true → Runs c s (fun t => answers t false ∧
            t.rlp = { s.rlp with chans := t.rlp.chans, expect := t.rlp.expect } ∧ quiet t)) ∧
          (typ = 5 → isRoot s = true → undecided s = true → Runs c s (fun t => Aborts s t)) ∧
          (typ = 6 → s.psc.committed = true ∨ s.ras.lostWait = true ∨ s.psc.abortDue = true → Runs c s (fun t =>
            (outgoing t (sendChannel s 0)).length = (outgoing s (sendChannel s 0)).length + (treeChildren s).length ∧ quiet t)) ∧
          (typ = 6 → s.psc.committed = false → s.ras.lostWait = false → s.psc.abortDue = false → fieldAt f.payload 0 1 = 0 →
            Runs c s (fun t => Aborts s t)) ∧
          (typ = 6 → s.psc.committed = false → s.ras.lostWait = false → s.psc.abortDue = false → fieldAt f.payload 0 1 ≠ 0 →
            allDone s (· != 4) none = false → Runs c s (fun t =>
              List.lookup (f.tile % 4) t.rlp.outFrag = some (readFrag s (f.tile % 4) (f.payload.drop 4)) ∧
              (outgoing t (sendChannel s 0)).length = (outgoing s (sendChannel s 0)).length + (treeChildren s).length ∧ quiet t)) ∧
          (typ = 6 → s.psc.committed = false → s.ras.lostWait = false → s.psc.abortDue = false → fieldAt f.payload 0 1 ≠ 0 →
            allDone s (· != 4) none = true → s.psc.stepOn = true → ∀ first n, s.rlp.range = some (first, n) →
            (∀ i, i < fragCount n → i = f.tile % 4 ∨ (List.lookup i s.rlp.outFrag).isSome = true) → Runs c s (Commits s none)))) ∧
      (err = false → frameCrcOk bytes = true → f.typ ≠ typ → 1 ≤ f.typ → f.typ ≤ 6 → exec c s = .next s))

/-- Owned tiles: a window of 24 free slots on the tile's slab; a member's list is added to it element by element, exactly; the tile is
converted once every member is in, its codes go to its place at dest through the memory port, its window is released; each takes an idle
lane group or waits for one. A node of the dense tree takes its child's partial or goes up alone, and hands its value on at its highest
level (R220, R229, R230, R247, R256, R258, R281). That owner work and RUNs take turns by who was served last, with the work done in its
command, is log 105, the channel of a partial that goes on log 78, and that the tile of a checked stream is checked and converted again as a
drained one is (R144, R145) log 81: the model's choices. -/
def Obligations.OwnedTiles : Prop :=
  (∀ (s : State) (slab : Fin 8) (g u p : Nat), nextOwned s = some (g, u) → tileSlab s (rgroup s g) u = slab.val → p < 32 →
    (partOf s slab.val p).kind = 3 → (freeSlots s slab.val p).length = 24 →
    (∀ w, w ∈ s.staging.waits → w.slab ≠ slab.val ∨ w.part ≠ p) →
    (allocate s slab.val p (freeSlots s slab.val p) ownerHolder false true).isSome = true →
    Runs (.ownerWindowAllocate slab) s (fun t => ∃ w, t.rlp.windows = s.rlp.windows ++ [w] ∧ w.group = g ∧ w.u = u ∧
      w.slab = slab.val ∧ (partOf s slab.val w.part).kind = 3 ∧ w.slots.length = 24 ∧ w.count = 0 ∧ w.elems = [] ∧
      (∀ x, x ∈ w.slots → held s slab.val w.part x = false ∧ held t slab.val w.part x = true) ∧
      t.hostMem = s.hostMem ∧ t.sump = s.sump ∧ t.regs = s.regs ∧ t.cores = s.cores ∧ t.vers = s.vers)) ∧
  (∀ (s : State) (slab : Fin 8), (∀ g u, nextOwned s = some (g, u) → tileSlab s (rgroup s g) u ≠ slab.val) →
    exec (.ownerWindowAllocate slab) s = .next s) ∧
  (∀ (s : State) (group : Fin 64) (member : BitVec 16) (f : Frame) (w : Window),
    s.rlp.fbuf.find? (fun f => f.typ == 1 && f.group == group.val && f.src == member.toNat) = some f →
    let x := gtensor s (rgroup s group.val) f.tensor
    let row := fun (i : Nat) => 256 * (f.tile / x.bcols) + i / 256
    windowOf s group.val (x.base + f.tile) = some w →
    (ownerGroup s w.slab = false → exec (.ownerAdd group member) s =
      .next (setVe s w.slab { getVe s w.slab with ownerWait := true })) ∧
    (ownerGroup s w.slab = true → ((listOf f).map (·.1)).Nodup →
    (∀ e, e ∈ listOf f → row e.1 < x.rows ∧ 256 * (f.tile % x.bcols) + e.1 % 256 < x.cols ∧ rowMasked s x.mask (row e.1) = false) →
    (∀ y, y ∈ s.rlp.backlog → y.1 ≠ 2) →
    Runs (.ownerAdd group member) s (fun t => ∃ v, windowOf t group.val (x.base + f.tile) = some v ∧
      v = { w with count := w.count + 1, elems := v.elems } ∧
      (∀ i code, (i, code) ∈ listOf f → Tab.get 0 v.elems i = signed 192 (lowBits 192 (Tab.get 0 w.elems i +
        (promote (Dy.scale (decode f.fmt code) (-sigmaOf s x.gstream)) x.anchor).n))) ∧
      (∀ i, (∀ code, (i, code) ∉ listOf f) → Tab.get 0 v.elems i = Tab.get 0 w.elems i) ∧
      getVe t w.slab = { getVe s w.slab with ownerWait := false, ownerLast := true } ∧
      t.rlp.fbuf = s.rlp.fbuf.erase f ∧ t.hostMem = s.hostMem ∧ t.staging = s.staging ∧ t.sump = s.sump ∧ t.regs = s.regs ∧
      t.cores = s.cores))) ∧
  (∀ (s : State) (group : Fin 64) (member : BitVec 16),
    (∀ f, f ∈ s.rlp.fbuf → f.typ = 1 → f.group = group.val → f.src = member.toNat →
      windowOf s group.val ((gtensor s (rgroup s group.val) f.tensor).base + f.tile) = none) →
    exec (.ownerAdd group member) s = .next s) ∧
  (∀ (s : State) (group : Fin 64) (u : BitVec 32) (w : Window) (i t' : Nat) (x : GTensor),
    windowOf s group.val u.toNat = some w → tileOf s (rgroup s group.val) u.toNat = some (i, x, t') →
    (w.count ≠ (rgroup s group.val).size → exec (.ownerConvert group u) s = .next s) ∧
    (w.count = (rgroup s group.val).size → ownerGroup s w.slab = false → exec (.ownerConvert group u) s =
      .next (setVe s w.slab { getVe s w.slab with ownerWait := true })) ∧
    (w.count = (rgroup s group.val).size → ownerGroup s w.slab = true → Runs (.ownerConvert group u) s (fun t =>
      let st := streamOf s x.rstream
      let y := fun (i : Nat) => totalValue (leave (Tab.get 0 w.elems i)).1 x.anchor
      let out := convertTile st.fmt (sigmaOf s x.rstream) st.checked
        ((x.inTile t').map (fun rc => { key := rc.1 * 256 + rc.2, y := y (rc.1 * 256 + rc.2), r := none }))
      let code := fun (i : Nat) => match List.lookup i out.convs with | some c => c.code | none => zeroCode st.fmt
      windowOf t group.val u.toNat = none ∧ (group.val, x.base + t') ∈ t.rlp.done ∧
      (∀ k, k ∈ w.slots → held t w.slab w.part k = false) ∧
      (∃ j, t.bmp.jobs = s.bmp.jobs ++ [j] ∧ j.kind = .put none ∧ j.writes = true ∧ j.reads = false ∧ j.src = 0 ∧ j.wrIssued = 0 ∧
        j.dst = x.dest + ownedBefore (rgroup s group.val) x t' * (8192 * fmtBits st.fmt) ∧ j.len = 8192 * fmtBits st.fmt ∧
        j.buf = Mem.setBytes [] 0 (packCodes st.fmt ((List.range 65536).map code))) ∧
      getVe t w.slab = { getVe s w.slab with ownerWait := false, ownerLast := true } ∧ t.hostMem = s.hostMem ∧
      t.sump = s.sump ∧ t.regs = s.regs ∧ t.cores = s.cores ∧ t.vers = s.vers ∧ t.img = s.img))) ∧
  (∀ (s : State) (group : Fin 64) (u : BitVec 32) (level : Fin 17) (v : DenseVal) (i t' : Nat) (x : GTensor),
    let g := group.val
    let h := rgroup s g
    let j := treePos h u.toNat h.self_
    let l := level.val
    let slab := tileSlab s h u.toNat
    let child := fun (f : Frame) => f.typ == 2 && f.group == g && f.tensor == i && f.tile == t' && f.level + 1 == l
    s.rlp.dense.find? (fun v => v.group == g && v.u == u.toNat) = some v → tileOf s h u.toNat = some (i, x, t') →
    (l ≠ v.level + 1 ∨ treeTop h j < l → exec (.denseNodeAdd group u level) s = .next s) ∧
    (l = v.level + 1 → l ≤ treeTop h j → ∀ vals : List Word,
      (h.size ≤ j + 2 ^ (l - 1) ∧ vals = v.vals) ∨
        (j + 2 ^ (l - 1) < h.size ∧ ownerGroup s slab = true ∧ ∃ f, s.rlp.fbuf.find? child = some f ∧
          vals = List.zipWith (fun (a b : Word) => BitVec.ofNat 32 (add32 a.toNat b.toNat).code) v.vals (toWords f.payload)) →
      (l < treeTop h j → Runs (.denseNodeAdd group u level) s (fun t =>
        t.rlp.dense.find? (fun v => v.group == g && v.u == u.toNat) = some { v with level := l, vals := vals } ∧
        (∀ k, k ≠ slab → getVe t k = getVe s k) ∧
        t = { s with
          rlp := { s.rlp with dense := t.rlp.dense, fbuf := t.rlp.fbuf }, ves := t.ves,
          ras := { s.ras with units := t.ras.units } })) ∧
      (l = treeTop h j → j ≠ 0 → Runs (.denseNodeAdd group u level) s (fun t =>
        t.rlp.dense.find? (fun v => v.group == g && v.u == u.toNat) = none ∧
        (∃ f, outgoing t (sendChannel s 0) = outgoing s (sendChannel s 0) ++ [f] ∧ f.typ = 2 ∧ f.group = g ∧ f.tensor = i ∧ f.tile = t' ∧
          f.src = h.self_ ∧ f.level = twoPower j ∧ f.payload = ofWords vals) ∧
        t = { s with rlp := t.rlp, ves := t.ves, ras := { s.ras with units := t.ras.units } })) ∧
      (l = treeTop h j → j = 0 → Runs (.denseNodeAdd group u level) s (fun t =>
        t.rlp.dense.find? (fun v => v.group == g && v.u == u.toNat) = none ∧ (g, x.base + t') ∈ t.rlp.done ∧
        (∃ q, t.bmp.jobs = s.bmp.jobs ++ [q] ∧ q.kind = .put none ∧ q.len = 8192 * fmtBits (streamOf s x.rstream).fmt ∧
          q.dst = x.dest + ownedBefore h x t' * (8192 * fmtBits (streamOf s x.rstream).fmt)) ∧
        t.hostMem = s.hostMem ∧ t.sump = s.sump ∧ t.staging = s.staging ∧ t.regs = s.regs ∧ t.cores = s.cores ∧ t.vers = s.vers))) ∧
    (l = v.level + 1 → l ≤ treeTop h j → j + 2 ^ (l - 1) < h.size →
      ((∀ f, f ∈ s.rlp.fbuf → child f = false) → exec (.denseNodeAdd group u level) s = .next s) ∧
      ((∃ f, f ∈ s.rlp.fbuf ∧ child f = true) → ownerGroup s slab = false →
        exec (.denseNodeAdd group u level) s = .next (setVe s slab { getVe s slab with ownerWait := true }))))

/-- How a step is called off: a fragment goes up the tree in order; the notice goes up once, and never after statistics have; the deadline, a
lost outcome and a lost peer; of a committed step a lost peer leaves a gather that cannot complete (R259 to R262, R333, R334; that the gather
is then one to be retried is log 69). The group 0xFF of the notice is log 74, the channel that it goes on by log 78. -/
def Obligations.CallingOff : Prop :=
  (∀ (s : State) (i : Fin 4),
    (isRoot s = true ∨ s.rlp.fragSent.length ≠ i.val → exec (.statsFragmentSend i) s = .next s) ∧
    (∀ f op ch, isRoot s = false → s.rlp.fragSent.length = i.val → mergedFragment s i.val = some f → statsOp s = some (op, ch) →
      Runs (.statsFragmentSend i) s (fun t => t.rlp.fragSent = s.rlp.fragSent ++ [i.val] ∧ t.rlp.statsSent = true ∧
        (∃ g, outgoing t (sendChannel s ch) = outgoing s (sendChannel s ch) ++ [g] ∧ g.typ = 4 ∧ g.group = 0xFF ∧ g.tile = i.val ∧
          g.dst = treeParent s ∧ g.src = rlpRank s ∧ g.payload = f.bytes i.val) ∧ t = { s with rlp := t.rlp }))) ∧
  (∀ s : State, s.psc.stepOn = true → s.psc.committed = false → s.rlp.noticeDue = true →
    (isRoot s = true → Runs .sendAbortNotice s (fun t => Aborts s t)) ∧
    (isRoot s = false → s.rlp.notice = true ∨ s.rlp.statsSent = true →
      exec .sendAbortNotice s = .next { s with rlp := { s.rlp with noticeDue := false } }) ∧
    (isRoot s = false → s.rlp.notice = false → s.rlp.statsSent = false → Runs .sendAbortNotice s (fun t =>
      t.rlp.notice = true ∧ t.rlp.noticeDue = false ∧ (∃ g, outgoing t (sendChannel s 0) = outgoing s (sendChannel s 0) ++ [g] ∧
        g.typ = 5 ∧ g.group = 0xFF ∧ g.dst = treeParent s ∧ g.payload = []) ∧ t = { s with rlp := t.rlp }))) ∧
  (∀ s : State, s.rlp.noticeDue = false → exec .sendAbortNotice s = .next s) ∧
  (∀ (s : State) (rank : BitVec 16) (c : Instr), s.psc.stepOn = true → undecided s = true → s.rlp.statsSent = false →
    c = .deadlineExpire ∨ (c = .peerFail rank ∧ needsRank s rank.toNat = true) →
    (portServes s = false → Runs c s (fun t => Aborts s t)) ∧
    (portServes s = true → isRoot s = true → Runs c s (fun t => Aborts s t)) ∧
    (portServes s = true → isRoot s = false → s.rlp.notice = false →
      exec c s = .next { s with rlp := { s.rlp with noticeDue := true } })) ∧
  (∀ s : State, s.psc.stepOn = false ∨ undecided s = false →
    exec .deadlineExpire s = .next s ∧ exec .outcomeTimeout s = .next s) ∧
  (∀ (s : State) (rank : BitVec 16), s.psc.stepOn = false ∨ needsRank s rank.toNat = false → exec (.peerFail rank) s = .next s) ∧
  (∀ (s : State) (rank : BitVec 16), s.psc.stepOn = true → needsRank s rank.toNat = true → s.psc.committed = true →
    ((∀ g, g ∈ s.rlp.groups → gatherDone s g = true) → gatherWrites s = false → s.rlp.gsent = [] → exec (.peerFail rank) s = .next s) ∧
    (gatherWrites s = true ∨ s.rlp.gsent ≠ [] ∨ (∃ g, g ∈ s.rlp.groups ∧ gatherDone s g = false) →
      exec (.peerFail rank) s = .next { s with ras := { s.ras with gatherBad := true } })) ∧
  (∀ s : State, s.psc.stepOn = true → undecided s = true → isRoot s = false → Runs .outcomeTimeout s (fun t =>
    t.ras.lostWait = true ∧ t.rlp.lost = true ∧ t.psc.run = false ∧ t.psc.stopIssue = true ∧ t.psc.stepOn = true ∧
    (∀ a, a < s.silicon.cls.arrays → (getArray t a).stopped = true) ∧ seqOf t 5 = seqOf s 5 + 1 ∧ t.psc.attempt = s.psc.attempt ∧
    t.psc.step = s.psc.step ∧ t.psc.committed = s.psc.committed ∧ t.mbx = s.mbx ∧ t.hostMem = s.hostMem ∧ t.regs = s.regs))

/-- Recoveries by software: `RAS_OUTCOME` commits or aborts a step whose outcome was lost, `RAS_RETRY` takes up a failed update from its
failing tile, or its fetch, or sends a gather that cannot complete again as a new attempt; without such a failure each is a reserved write.
`RAS_SPARE_CTRL.snap` latches the record (R273, R334, R385). That the retry of a fetch takes the same bit is log 67, when a gather cannot
complete log 69, and that a commit by software uses the records as they stand log 50: the model's choices. -/
def Obligations.Recoveries : Prop :=
  (∀ (s : State) (req : Req) (commit lockMatch : Bool), s.boot.stage ≠ 0 →
    (s.ras.lostWait = false → exec (.rasOutcome req commit lockMatch) s = .next (reservedWrite (dropHold s req) req 0x280040)) ∧
    (s.ras.lostWait = true → commit = false → Runs (.rasOutcome req commit lockMatch) s (fun t => Aborts s t)) ∧
    (s.ras.lostWait = true → commit = true → Runs (.rasOutcome req commit lockMatch) s (fun t => t.ras.lostWait = false ∧
      getMbx t 0 = { value := BitVec.ofNat 64 (s.psc.step.toNat + s.psc.attempt.toNat * 2 ^ 40), seq := (getMbx s 0).seq + 1,
                     ready := true } ∧ (∀ n, n ≠ 0 → getMbx t n = getMbx s n) ∧ t.gov.loc = [] ∧
      (t.psc.committed = true ∧ t.psc.step = s.psc.step ∨
        t.psc.committed = false ∧ t.psc.step = s.psc.step + 1 ∧ t.psc.attempt = 0)))) ∧
  (∀ (s : State) (req : Req), s.boot.stage ≠ 0 →
    (s.ras.updFail = none → exec (.rasRetryUpdate req) s = .next (reservedWrite (dropHold s req) req 0x280044)) ∧
    (∀ f, s.ras.updFail = some f →
      (f.slot.op = 0 → exec (.rasRetryUpdate req) s = .next { dropHold s req with
        psc := { s.psc with stopIssue := false }, ras := { s.ras with updFail := none },
        bmp := { s.bmp with
          jobs := s.bmp.jobs.map (fun j => if failedFetch s j = true then { j with failed := false } else j) } }) ∧
      (f.slot.op ≠ 0 → exec (.rasRetryUpdate req) s = .next { dropHold s req with
        psc := { s.psc with stopIssue := false, accepted := f.slot :: s.psc.accepted },
        ras := { s.ras with updFail := none, updFrom := some (f.slot.op, f.tile) } })) ∧
    (gatherPending s = false ∨ (s.ras.gatherBad = false ∧ portServes s = true) → exec (.rasRetryGather req) s = .next (reservedWrite (dropHold s req) req 0x280044)) ∧
    (gatherPending s = true → s.ras.gatherBad = true ∨ portServes s = false → Runs (.rasRetryGather req) s (fun t =>
      t.psc.attempt = BitVec.ofNat 8 (min 255 (s.psc.attempt.toNat + 1)) ∧ t.ras.gatherBad = false ∧ t.rlp.gathered = [] ∧
      t.rlp.expect = [] ∧ t.rlp.fbuf = s.rlp.fbuf.filter (fun f => f.typ != 3) ∧
      (∀ j, j ∈ t.bmp.jobs → ∀ k, j.kind ≠ .put (some k)) ∧
      (∀ x, x ∈ s.rlp.gsent → ∃ f, f ∈ outgoing t (sendChannel s x.1) ∧ f.attempt = min 255 (s.psc.attempt.toNat + 1) ∧ f.typ = x.2.2.typ ∧
        f.group = x.2.2.group ∧ f.dst = x.2.2.dst ∧ f.tensor = x.2.2.tensor ∧ f.tile = x.2.2.tile ∧ f.payload = x.2.2.payload) ∧
      t.psc.step = s.psc.step ∧ t.hostMem = s.hostMem ∧ t.staging = s.staging ∧ t.regs = s.regs ∧ t.cores = s.cores ∧ t.vers = s.vers)) ∧
    exec (.rasSpareSnap req) s = .next { dropHold s req with ras := { s.ras with window := spareRecord s } })

/-- R331: a spare row or column that fails its self-test is appended to the field-spare record as a retirement, with
`spare_test_failed`; it counts as used from then on, no logical index moves, and no step ends. The test runs in a background quantum, while
the array is between passes (R340, R341; what lets a quantum run: log 110); at other times the command does nothing. A test in a forced
slot that waited for the pass to end holds the array's LOADs for its 512 ACLK from its start. -/
def Obligations.SpareSelfTest : Prop :=
  ∀ (s : State) (e : Element), 8 ≤ s.boot.stage.toNat → s.boot.stage ≠ 0xF →
    (isUnusedSpare s e = true ↔ e.array < s.silicon.cls.physArrays ∧ e.index < physSize s ∧ e ∉ s.silicon.fuseMap ∧
      e ∉ s.ras.retired ∧ e.index ∉ inService s e.array e.isCol) ∧
    (let begins := s.ras.forced.contains (2, e.array) = true ∧ Tab.get 0 s.ras.bgLoads e.array = 0
    betweenPasses s e.array = true → quantumRuns s 2 e.array (physSlab s e.array) = true → isUnusedSpare s e = true →
    Runs (.spareColumnSelfTest e false) s (fun t => t.ras.retired = s.ras.retired ++ [e] ∧
      sparesLeft t e.array e.isCol = sparesLeft s e.array e.isCol - 1 ∧ isUnusedSpare t e = false ∧
      (∀ a c, inService t a c = inService s a c) ∧ seqOf t 6 = seqOf s 6 + 1 ∧
      ((waitingRecords s 6).length < 8 → waitingRecords t 6 = waitingRecords s 6 ++
        [{ source := 6, seq := seqOf s 6, time := s.clock.ts, code := BitVec.ofNat 16 Ev.spareTestFailed,
           payload := elementPayload e }]) ∧
      Tab.get 0 t.ras.bgLoads e.array = (if begins then s.clock.aclk + 512 else Tab.get 0 s.ras.bgLoads e.array) ∧
      t = { s with
        ras := { s.ras with retired := t.ras.retired, units := t.ras.units, forced := t.ras.forced, bgLoads := t.ras.bgLoads },
        evt := t.evt, intc := t.intc, life := t.life }) ∧
      (begins → exec (.spareColumnSelfTest e true) s = .next { s with
        ras := { s.ras with
          forced := s.ras.forced.erase (2, e.array), bgLoads := s.ras.bgLoads.put e.array (s.clock.aclk + 512) } }) ∧
      (¬ begins → exec (.spareColumnSelfTest e true) s = .next { s with ras := { s.ras with forced := s.ras.forced.erase (2, e.array) } })) ∧
    (betweenPasses s e.array = false ∨ quantumRuns s 2 e.array (physSlab s e.array) = false ∨ isUnusedSpare s e = false →
      ∀ ok, exec (.spareColumnSelfTest e ok) s = .next s)

/-- What the engine does to keep itself sound: leaky counts decay; the localisation test clears or decides a declared column; a retirement
applies at a pass boundary, and an array whose last spare of the kind a self-test has failed since is retired instead; an array that is
retired is replaced, or fails; scrub, and words that other reads correct; sensor calibration; a background quantum forced into
issue, and one that cannot run now, of which those that power holds count for power (R75 to R77, R171, R210, R327 to R329, R333, R337,
R340, R341, R348). That a column's test is due at its array's pass boundary is log 53, that a spare array takes over at the next passage
boundary log 37, when a declaration lapses with a retirement log 39, what lets a quantum run log 110, and that scrub and sensor calibration
do nothing in a stage below 8 or in 0xF, while words that other reads correct count from the release of SCLK on, logs 11 and 36: the model's
choices. -/
def Obligations.Upkeep : Prop :=
  (∀ (s : State) (cls : Fin 5) (index : BitVec 16), let n := leakyCount s cls.val index.toNat
    (n = 0 ∨ isPermanent s cls.val index.toNat = true → exec (.leakyDecay cls index) s = .next s) ∧
    (0 < n → isPermanent s cls.val index.toNat = false → Runs (.leakyDecay cls index) s (fun t =>
      leakyCount t cls.val index.toNat = n - 1 ∧
      (∀ c i, i < 65536 → (c, i) ≠ (cls.val, index.toNat) → leakyCount t c i = leakyCount s c i) ∧
      t = { s with ras := { s.ras with leaky := t.ras.leaky } }))) ∧
  (∀ (s : State) (p a col : Nat), s.ras.locPend.find? (fun x => x.1 == p) = some (p, col) → logicalOf s p = some a →
    (atBoundary s a = false → ∀ f, exec (.localisationTest p f) s = .next s) ∧
    (atBoundary s a = true →
      Runs (.localisationTest p .sound) s (fun t => leakyCount t 2 (264 * p + col) = 0 ∧ isPermanent t 2 (264 * p + col) = false ∧
        t.ras.locPend = s.ras.locPend.erase (p, col) ∧ t.ras.retired = s.ras.retired ∧ t.ras.retPend = s.ras.retPend ∧
        t.clock.aclk = s.clock.aclk + 2048 ∧ (s.psc.run = false → t.psc.stalls = s.psc.stalls) ∧
        (s.psc.run = true → let p := if s.pwr.paused || s.pwr.waiting then 2048 else 128 * bubbleCount s
          Tab.get 0 t.psc.stalls 2 = satAdd (Tab.get 0 s.psc.stalls 2) (2048 - p) ∧
          Tab.get 0 t.psc.stalls 14 = satAdd (Tab.get 0 s.psc.stalls 14) p) ∧
        t.hostMem = s.hostMem ∧ t.staging = s.staging ∧ t.regs = s.regs ∧ t.cores = s.cores ∧ t.vers = s.vers) ∧
      (∀ (f : Localised) (e : Element),
        ((∃ i, f = .row i ∧ e = { array := p, isCol := false, index := i }) ∨
          (f = .column ∧ e = { array := p, isCol := true, index := col })) →
        e ∉ s.ras.retPend → sparesTaken s p e.isCol < sparesLeft s p e.isCol → Runs (.localisationTest p f) s (fun t => t.ras.retPend = s.ras.retPend ++ [e] ∧
          t.ras.locPend = s.ras.locPend.erase (p, col) ∧ t.ras.retired = s.ras.retired ∧ t.clock.aclk = s.clock.aclk + 2048 ∧
          t.psc.ops = s.psc.ops ∧ t.sump = s.sump ∧ t.hostMem = s.hostMem)) ∧
      (∀ (f : Localised) (e : Element),
        ((∃ i, f = .row i ∧ e = { array := p, isCol := false, index := i }) ∨
          (f = .column ∧ e = { array := p, isCol := true, index := col })) →
        e ∈ s.ras.retPend → Runs (.localisationTest p f) s (fun t => t.ras.retPend = s.ras.retPend ∧
          t.ras.locPend = s.ras.locPend.erase (p, col) ∧ t.ras.failed = s.ras.failed ∧ t.sump = s.sump)) ∧
      (∀ f : Localised, f = .other ∨
        (∃ i, f = .row i ∧ { array := p, isCol := false, index := i } ∉ s.ras.retPend ∧ sparesLeft s p false ≤ sparesTaken s p false) ∨
        (f = .column ∧ { array := p, isCol := true, index := col } ∉ s.ras.retPend ∧ sparesLeft s p true ≤ sparesTaken s p true) →
        Runs (.localisationTest p f) s (fun t => t.ras.retPend = s.ras.retPend ∧
          Tab.get 0 t.life.acc.retires (98 + p) = satAdd (Tab.get 0 s.life.acc.retires (98 + p)) 1 ∧
          (spareFree s p = true → t.ras.failed = s.ras.failed ∧
            (p ∈ t.ras.subPend ∨ List.lookup (physSlab s p) t.ras.spareFor = some (physPos s p))) ∧
          (spareFree s p = false → a ∈ t.ras.failed))))) ∧
  (∀ (s : State) (p : Nat), (∀ x, x ∈ s.ras.locPend → x.1 ≠ p) → ∀ f, exec (.localisationTest p f) s = .next s) ∧
  (∀ (s : State) (p a : Nat) (e : Element), s.ras.retPend.find? (fun e => e.array == p) = some e → logicalOf s p = some a →
    (atBoundary s a = false → exec (.retirementApply p) s = .next s) ∧
    (atBoundary s a = true → sparesLeft s p e.isCol = 0 → Runs (.retirementApply p) s (fun t =>
      t.ras.retired = s.ras.retired ∧ t.ras.retPend = s.ras.retPend.erase e ∧
      Tab.get 0 t.life.acc.retires (98 + p) = satAdd (Tab.get 0 s.life.acc.retires (98 + p)) 1 ∧
      (spareFree s p = true → t.ras.failed = s.ras.failed ∧
        (p ∈ t.ras.subPend ∨ List.lookup (physSlab s p) t.ras.spareFor = some (physPos s p))) ∧
      (spareFree s p = false → a ∈ t.ras.failed))) ∧
    (atBoundary s a = true → sparesLeft s p e.isCol ≠ 0 → Runs (.retirementApply p) s (fun t => t.ras.retired = s.ras.retired ++ [e] ∧
      t.ras.retPend = s.ras.retPend.erase e ∧
      ((getArray s a).stopped = false → ∀ q, (getArray s a).loading = some q →
        (getArray t a).loading = some { q with complete := false }) ∧
      (∀ b, b ≠ a → getArray t b = getArray s b) ∧ t.hostMem = s.hostMem ∧ t.staging = s.staging ∧ t.regs = s.regs ∧
      t.cores = s.cores ∧ t.vers = s.vers ∧ t.sump.totals = s.sump.totals))) ∧
  (∀ (s : State) (p : Nat), (∀ e, e ∈ s.ras.retPend → e.array ≠ p) → exec (.retirementApply p) s = .next s) ∧
  (∀ (s : State) (unit bank : Nat),
    let runs := 8 ≤ s.boot.stage.toNat ∧ s.boot.stage ≠ 0xF ∧ quantumRuns s 0 unit unit = true
    let covered := s.boot.stage ≠ 0 ∧ ((unit < s.slabs ∧ bank < 6) ∨ (unit = 8 ∧ bank < 3))
    (¬ covered → ∀ f, exec (.scrubQuantum unit bank f) s = .next s) ∧
    (¬ runs → exec (.scrubQuantum unit bank .clean) s = .next s ∧
      exec (.scrubQuantum unit bank .doubleUnused) s = .next s) ∧
    (covered → runs →
      exec (.scrubQuantum unit bank .clean) s = .next { s with ras := { s.ras with forced := s.ras.forced.erase (0, unit) } }) ∧
    (covered → leakyCount s 3 (scrubIndex unit bank) + 1 < faultLimit s 3 → ∀ f,
      f = .corrected ∨ (f = .doubleUnused ∧ runs) →
      Runs (.scrubQuantum unit bank f) s (fun t =>
        leakyCount t 3 (scrubIndex unit bank) = leakyCount s 3 (scrubIndex unit bank) + 1 ∧
        t = { s with ras := { s.ras with leaky := t.ras.leaky, forced := t.ras.forced }, life := t.life })) ∧
    (covered → s.psc.stepOn = false ∨ s.psc.committed = true → ∀ u sl a,
      Runs (.scrubQuantum unit bank (.doubleInUse u sl a)) s (fun t => seqOf t 6 = seqOf s 6 + 1 ∧
        ((waitingRecords s 6).length < 8 → waitingRecords t 6 = waitingRecords s 6 ++
          [{ source := 6, seq := seqOf s 6, time := s.clock.ts, code := BitVec.ofNat 16 Ev.uncorrectable,
             payload := u ++ sl ++ a }]) ∧
        t = { s with
          evt := t.evt, intc := t.intc, ras := { s.ras with units := t.ras.units, forced := t.ras.forced }, life := t.life }))) ∧
  (∀ (s : State) (v : List (BitVec 16)),
    (8 ≤ s.boot.stage.toNat → s.boot.stage ≠ 0xF → quantumRuns s 1 8 8 = true → Runs (.sensorCalibrationQuantum v) s (fun t =>
      (∀ i, i < 12 → Tab.get 0 t.life.sense i = v.getD i 0) ∧ t = { s with
        life := { s.life with sense := t.life.sense }, ras := { s.ras with forced := s.ras.forced.erase (1, 8) } })) ∧
    (s.boot.stage.toNat < 8 ∨ s.boot.stage = 0xF ∨ quantumRuns s 1 8 8 = false → exec (.sensorCalibrationQuantum v) s = .next s)) ∧
  (∀ (s : State) (job : Fin 5) (unit : BitVec 20),
    (s.psc.run = false ∨ s.psc.issuing = none ∨ (job = 2 ∧ hasSpare s unit.toNat = false) →
      exec (.forcedBackgroundSlot job unit) s = .next s) ∧
    (s.psc.run = true → s.psc.issuing ≠ none → job = 2 → hasSpare s unit.toNat = true →
      Runs (.forcedBackgroundSlot job unit) s (fun t =>
        Tab.get 0 t.ras.bgLoads unit.toNat = (if betweenPasses s unit.toNat then s.clock.aclk + 512 else 0) ∧
        (∀ a sl, physOf s a = unit.toNat → sl.array = a → betweenPasses s unit.toNat = false → fld sl.word.toNat 63 60 = 1 →
          (castOf s a).enabled = true → (ctxOf s sl.passage (fld sl.word.toNat 42 35)).good 1 = true →
          emptyOutlier s (ctxOf s sl.passage (fld sl.word.toNat 42 35)) = false → loadHold t sl = some 15) ∧
        t.ras.forced = s.ras.forced ++ [(2, unit.toNat)] ∧ seqOf t 6 = seqOf s 6 + 1 ∧ t.clock = s.clock ∧ t.psc = s.psc ∧
        t = { s with evt := t.evt, intc := t.intc, ras := t.ras, life := t.life })) ∧
    (s.psc.run = true → s.psc.issuing ≠ none → job ≠ 2 → Runs (.forcedBackgroundSlot job unit) s (fun t =>
      let n := [64, 256, 512, 128, 64].getD job.val 0
      let p := if s.pwr.paused || s.pwr.waiting then n else n / 16 * bubbleCount s
      t.clock = { s.clock with aclk := s.clock.aclk + n } ∧
      Tab.get 0 t.psc.stalls 15 = satAdd (Tab.get 0 s.psc.stalls 15) (n - p) ∧
      Tab.get 0 t.psc.stalls 14 = satAdd (Tab.get 0 s.psc.stalls 14) p ∧
      (∀ c, c ≠ 14 → c ≠ 15 → Tab.get 0 t.psc.stalls c = Tab.get 0 s.psc.stalls c) ∧ seqOf t 6 = seqOf s 6 + 1 ∧
      t = { s with
        clock := t.clock, psc := { s.psc with stalls := t.psc.stalls }, evt := t.evt, intc := t.intc,
        ras := { s.ras with units := t.ras.units, forced := s.ras.forced ++ [(job.val, if job = 0 then unit.toNat else 8)] },
        life := t.life })))

end
end

