-- ==== Sys2Proof/WellFormed.lean ====
section
/-! DEFINITION. Which operands a command may carry: word addresses, physical elements that exist in some class,
chunk words that exist, whole beats of 64 bytes, full sensor and trim lists. `exec` gives every command a meaning,
well-formed or not. -/

namespace Sys2Proof

/-- An access is a word access at a multiple of four (R361). -/
def wordAddress (a : Nat) : Bool := a % 4 == 0
/-- A physical row or column of the largest class (R53, R78). -/
def elementOk (e : Element) : Bool := decide (e.array < 72) && decide (e.index < 264)
/-- A finding names what exists (R318). -/
def findingOk : BistFinding → Bool
  | .element e => elementOk e
  | .wholeArray a => decide (a < 72)
  | .memory _ slab => decide (slab < 8)
/-- A chunk word of the largest class (R59, R62). -/
def chunkOk (c : ChunkId) : Bool :=
  decide (c.array < 64) && decide (c.row < 2 ^ 28) && decide (c.col < 256) && decide (c.seg < 256)
/-- Whole beats of 64 bytes (R253, R270). -/
def beatBytes (bs : List (BitVec 8)) : Bool := bs.length % 64 == 0

/-- A command's operands are such as its row allows. -/
def Instr.wf : Instr → Bool
  | .rstNFall => true
  | .rstNRise => true
  | .domainReleaseComplete => true
  | .fuseStageComplete f => f.trims.length == 4 && f.retired.all elementOk
  | .spareRecordRestoreWrite _ off _ => wordAddress off.toNat
  | .sparesDone _ => true
  | .spareMappingComplete => true
  | .bistComplete found => found.all findingOk
  | .sensorCalibrationComplete _ sense => sense.length == 12
  | .lifeRecordRestoreWrite _ off _ => wordAddress off.toNat
  | .lifeDone _ => true
  | .negotiationStart up _ => up != 0
  | .negotiationIntervalEnd _ _ => true
  | .negotiationTimeout => true
  | .registerWrite _ addr _ _ => wordAddress addr.toNat
  | .coherentLowRead _ addr => wordAddress addr.toNat
  | .runSet _ => true
  | .pscResolve _ _ _ => true
  | .versionAcquire _ _ _ _ => true
  | .versionRelease _ _ _ _ => true
  | .pscPreempt _ _ => true
  | .imgLoad _ => true
  | .imageValidate _ => true
  | .imgSwap _ => true
  | .aplApply _ _ _ => true
  | .applyInPulse => true
  | .aplLockSet _ => true
  | .lifeSave _ => true
  | .rasOutcome _ _ _ => true
  | .rasRetryUpdate _ => true
  | .rasRetryGather _ => true
  | .rasSpareSnap _ => true
  | .evtLatch _ => true
  | .evtTailWrite _ _ => true
  | .mbxOpen _ _ => true
  | .mbxPost _ _ => true
  | .mbxSnap _ _ => true
  | .intAck _ _ _ => true
  | .intEoi _ _ _ => true
  | .intSwset _ _ _ => true
  | .intSwclr _ _ _ => true
  | .ccHoldSet _ _ => true
  | .ccHoldClear _ _ => true
  | .ccWindowWrite _ _ off _ => wordAddress off.toNat
  | .govStateWrite _ _ _ => true
  | .ccInstruction _ _ => true
  | .ccInterruptTaken _ => true
  | .zsrd _ _ _ => true
  | .zswr _ _ _ => true
  | .znpop _ _ => true
  | .zncnt _ _ => true
  | .zres _ _ => true
  | .zevt _ _ _ => true
  | .zcnt _ _ _ => true
  | .wsBypass => true
  | .wsExtest => true
  | .wsIntest => true
  | .zwMbist => true
  | .zwFuseRead => true
  | .zwFuseProg _ _ => true
  | .zwId => true
  | .testEnChange => true
  | .passageSelect => true
  | .variantSwap => true
  | .bundleIssue => true
  | .passageComplete _ => true
  | .passageUndoComplete _ => true
  | .passageSuspend => true
  | .passageResume => true
  | .nop _ => true
  | .load _ => true
  | .burst _ _ => true
  | .openGroup _ => true
  | .close _ => true
  | .anchor _ => true
  | .drain _ => true
  | .spill _ => true
  | .reload _ => true
  | .combine _ => true
  | .veMap _ => true
  | .veReduce _ => true
  | .veSelect _ => true
  | .veWideAdd _ => true
  | .veWideConvert _ => true
  | .veUpdate _ _ => true
  | .moveHostToStaging _ => true
  | .moveStagingToHost _ => true
  | .moveHostToHost _ => true
  | .send _ => true
  | .frameSparse _ => true
  | .frameDenseLeaf _ => true
  | .frameGather _ => true
  | .stats _ => true
  | .gap => true
  | .notify => true
  | .stationaryLoadComplete _ => true
  | .feederFill _ _ => true
  | .residueCheck c _ => chunkOk c
  | .rowReplay _ => true
  | .chunkPromote c => chunkOk c
  | .drainTileCheck _ _ => true
  | .combineComplete _ => true
  | .runFinish _ => true
  | .moveComplete _ => true
  | .stagingAllocate _ _ => true
  | .ropeTileArrive _ => true
  | .ropeHoldTimeout _ => true
  | .bmpRequest _ => true
  | .bmpReqCredit _ => true
  | .bmpWdataCredit _ => true
  | .bmpResponse _ _ _ data => beatBytes data
  | .bmpTimeout _ _ => true
  | .bmpChannelDown _ => true
  | .sendAbortNotice => true
  | .frameTransmit _ => true
  | .rlpTxCredit _ => true
  | .receiveSparseList _ _ bytes => beatBytes bytes
  | .receiveDensePartial _ _ bytes => beatBytes bytes
  | .receiveGatherTile _ _ bytes => beatBytes bytes
  | .receiveStatistics _ _ bytes => beatBytes bytes
  | .receiveAbortNotice _ _ bytes => beatBytes bytes
  | .receiveOutcome _ _ bytes => beatBytes bytes
  | .ownerWindowAllocate _ => true
  | .ownerAdd _ _ => true
  | .ownerConvert _ _ => true
  | .denseNodeAdd _ _ _ => true
  | .statsFragmentSend _ => true
  | .deadlineExpire => true
  | .outcomeTimeout => true
  | .peerFail _ => true
  | .laneDown _ => true
  | .leakyDecay _ _ => true
  | .localisationTest array _ => decide (array < 72)
  | .retirementApply array => decide (array < 72)
  | .scrubQuantum unit _ _ => decide (unit < 9)
  | .sensorCalibrationQuantum sense => sense.length == 12
  | .spareColumnSelfTest el _ => elementOk el
  | .telemetrySnapshot sense => sense.length == 12
  | .lifetimeFlush => true
  | .forcedBackgroundSlot _ _ => true
  | .pwrCapStrobe _ => true
  | .powerWindow _ => true
  | .droopFall => true
  | .droopRise => true
  | .rampStep => true
  | .pwrRampAck => true
  | .rampTimeout => true
  | .histogramSecond _ _ => true
  | .eventLogWrite _ => true
  | .tsEpoch => true
  | .intDelivery => true
  | .moderationExpire _ => true
  | .rlpLaneUp _ _ => true
  | .applyOutPulseEnd => true
  | .drainComplete _ => true
  | .spillComplete _ => true
  | .reloadComplete _ => true

end Sys2Proof
end

