-- ==== Sys2Proof/Laws/PerInstr.lean ====
section
/-! SUPPORT. The family `Wf`: a well-formed command that names a byte address names a word (R361). -/

namespace Sys2Proof.Laws.Wf

/-- The byte address a command carries; 0 where it carries none. -/
def Instr.addressOperand : Instr → Nat
  | .spareRecordRestoreWrite _ off _ => off.toNat
  | .lifeRecordRestoreWrite _ off _ => off.toNat
  | .registerWrite _ addr _ _ => addr.toNat
  | .coherentLowRead _ addr => addr.toNat
  | .ccWindowWrite _ _ off _ => off.toNat
  | _ => 0

/-- The family's statement. -/
def Statement (i : Instr) : Prop := i.wf = true → Instr.addressOperand i % 4 = 0

theorem rstNFall : Statement (.rstNFall) := fun _ => rfl
theorem rstNRise : Statement (.rstNRise) := fun _ => rfl
theorem domainReleaseComplete : Statement (.domainReleaseComplete) := fun _ => rfl
theorem fuseStageComplete (x_f : FuseRead) : Statement (.fuseStageComplete x_f) := fun _ => rfl
theorem spareRecordRestoreWrite (x_req : Req) (x_off : BitVec 12) (x_v : Word) : Statement (.spareRecordRestoreWrite x_req x_off x_v) := by
  simp [Statement, Instr.addressOperand, Instr.wf, wordAddress]
theorem sparesDone (x_req : Req) : Statement (.sparesDone x_req) := fun _ => rfl
theorem spareMappingComplete : Statement (.spareMappingComplete) := fun _ => rfl
theorem bistComplete (x_found : List BistFinding) : Statement (.bistComplete x_found) := fun _ => rfl
theorem sensorCalibrationComplete (x_ok : Bool) (x_sense : List (BitVec 16)) : Statement (.sensorCalibrationComplete x_ok x_sense) := fun _ => rfl
theorem lifeRecordRestoreWrite (x_req : Req) (x_off : BitVec 13) (x_v : Word) : Statement (.lifeRecordRestoreWrite x_req x_off x_v) := by
  simp [Statement, Instr.addressOperand, Instr.wf, wordAddress]
theorem lifeDone (x_req : Req) : Statement (.lifeDone x_req) := fun _ => rfl
theorem negotiationStart (x_up : BitVec 64) (x_ver : BitVec 2) : Statement (.negotiationStart x_up x_ver) := fun _ => rfl
theorem negotiationIntervalEnd (x_up : BitVec 64) (x_lanes : BitVec 32) : Statement (.negotiationIntervalEnd x_up x_lanes) := fun _ => rfl
theorem negotiationTimeout : Statement (.negotiationTimeout) := fun _ => rfl
theorem registerWrite (x_req : Req) (x_addr : BitVec 24) (x_be : BitVec 4) (x_v : Word) : Statement (.registerWrite x_req x_addr x_be x_v) := by
  simp [Statement, Instr.addressOperand, Instr.wf, wordAddress]
theorem coherentLowRead (x_req : Req) (x_addr : BitVec 24) : Statement (.coherentLowRead x_req x_addr) := by
  simp [Statement, Instr.addressOperand, Instr.wf, wordAddress]
theorem runSet (x_req : Req) : Statement (.runSet x_req) := fun _ => rfl
theorem pscResolve (x_req : Req) (x_cond : BitVec 8) (x_outcome : Bool) : Statement (.pscResolve x_req x_cond x_outcome) := fun _ => rfl
theorem versionAcquire (x_req : Req) (x_binding : BitVec 4) (x_first x_last : BitVec 10) : Statement (.versionAcquire x_req x_binding x_first x_last) := fun _ => rfl
theorem versionRelease (x_req : Req) (x_binding : BitVec 4) (x_first x_last : BitVec 10) : Statement (.versionRelease x_req x_binding x_first x_last) := fun _ => rfl
theorem pscPreempt (x_req : Req) (x_q : BitVec 12) : Statement (.pscPreempt x_req x_q) := fun _ => rfl
theorem imgLoad (x_req : Req) : Statement (.imgLoad x_req) := fun _ => rfl
theorem imageValidate (x_fetchOk : Bool) : Statement (.imageValidate x_fetchOk) := fun _ => rfl
theorem imgSwap (x_req : Req) : Statement (.imgSwap x_req) := fun _ => rfl
theorem aplApply (x_req : Req) (x_mask : BitVec 16) (x_out : ApplyWrite) : Statement (.aplApply x_req x_mask x_out) := fun _ => rfl
theorem applyInPulse : Statement .applyInPulse := fun _ => rfl
theorem aplLockSet (x_req : Req) : Statement (.aplLockSet x_req) := fun _ => rfl
theorem lifeSave (x_req : Req) : Statement (.lifeSave x_req) := fun _ => rfl
theorem rasOutcome (x_req : Req) (x_commit x_lockMatch : Bool) : Statement (.rasOutcome x_req x_commit x_lockMatch) := fun _ => rfl
theorem rasRetryUpdate (x_req : Req) : Statement (.rasRetryUpdate x_req) := fun _ => rfl
theorem rasRetryGather (x_req : Req) : Statement (.rasRetryGather x_req) := fun _ => rfl
theorem rasSpareSnap (x_req : Req) : Statement (.rasSpareSnap x_req) := fun _ => rfl
theorem evtLatch (x_req : Req) : Statement (.evtLatch x_req) := fun _ => rfl
theorem evtTailWrite (x_req : Req) (x_v : Word) : Statement (.evtTailWrite x_req x_v) := fun _ => rfl
theorem mbxOpen (x_req : Req) (x_n : BitVec 4) : Statement (.mbxOpen x_req x_n) := fun _ => rfl
theorem mbxPost (x_req : Req) (x_n : BitVec 4) : Statement (.mbxPost x_req x_n) := fun _ => rfl
theorem mbxSnap (x_req : Req) (x_n : BitVec 4) : Statement (.mbxSnap x_req x_n) := fun _ => rfl
theorem intAck (x_req : Req) (x_t : Fin 8) (x_source : BitVec 8) : Statement (.intAck x_req x_t x_source) := fun _ => rfl
theorem intEoi (x_req : Req) (x_t : Fin 8) (x_source : BitVec 8) : Statement (.intEoi x_req x_t x_source) := fun _ => rfl
theorem intSwset (x_req : Req) (x_i : Fin 6) (x_bits : Word) : Statement (.intSwset x_req x_i x_bits) := fun _ => rfl
theorem intSwclr (x_req : Req) (x_i : Fin 6) (x_bits : Word) : Statement (.intSwclr x_req x_i x_bits) := fun _ => rfl
theorem ccHoldSet (x_req : Req) (x_core : Fin 4) : Statement (.ccHoldSet x_req x_core) := fun _ => rfl
theorem ccHoldClear (x_req : Req) (x_core : Fin 4) : Statement (.ccHoldClear x_req x_core) := fun _ => rfl
theorem ccWindowWrite (x_req : Req) (x_core : Fin 4) (x_off : BitVec 15) (x_v : Word) : Statement (.ccWindowWrite x_req x_core x_off x_v) := by
  simp [Statement, Instr.addressOperand, Instr.wf, wordAddress]
theorem govStateWrite (x_req : Req) (x_w : Fin 4) (x_v : Word) : Statement (.govStateWrite x_req x_w x_v) := fun _ => rfl
theorem ccInstruction (x_core : Fin 4) (x_mem : CoreMemory) : Statement (.ccInstruction x_core x_mem) := fun _ => rfl
theorem ccInterruptTaken (x_core : Fin 4) : Statement (.ccInterruptTaken x_core) := fun _ => rfl
theorem zsrd (x_core : Fin 4) (x_rd : BitVec 5) (x_n : BitVec 6) : Statement (.zsrd x_core x_rd x_n) := fun _ => rfl
theorem zswr (x_core : Fin 4) (x_rs1 : BitVec 5) (x_n : BitVec 6) : Statement (.zswr x_core x_rs1 x_n) := fun _ => rfl
theorem znpop (x_core : Fin 4) (x_rd : BitVec 5) : Statement (.znpop x_core x_rd) := fun _ => rfl
theorem zncnt (x_core : Fin 4) (x_rd : BitVec 5) : Statement (.zncnt x_core x_rd) := fun _ => rfl
theorem zres (x_core : Fin 4) (x_rs1 : BitVec 5) : Statement (.zres x_core x_rs1) := fun _ => rfl
theorem zevt (x_core : Fin 4) (x_rs1 x_rs2 : BitVec 5) : Statement (.zevt x_core x_rs1 x_rs2) := fun _ => rfl
theorem zcnt (x_core : Fin 4) (x_rs1 : BitVec 5) (x_n : BitVec 4) : Statement (.zcnt x_core x_rs1 x_n) := fun _ => rfl
theorem wsBypass : Statement .wsBypass := fun _ => rfl
theorem wsExtest : Statement .wsExtest := fun _ => rfl
theorem wsIntest : Statement (.wsIntest) := fun _ => rfl
theorem zwMbist : Statement .zwMbist := fun _ => rfl
theorem zwFuseRead : Statement (.zwFuseRead) := fun _ => rfl
theorem zwFuseProg (x_bits : BitVec 8192) (x_vddFuse : Bool) : Statement (.zwFuseProg x_bits x_vddFuse) := fun _ => rfl
theorem zwId : Statement (.zwId) := fun _ => rfl
theorem testEnChange : Statement (.testEnChange) := fun _ => rfl
theorem passageSelect : Statement (.passageSelect) := fun _ => rfl
theorem variantSwap : Statement (.variantSwap) := fun _ => rfl
theorem bundleIssue : Statement (.bundleIssue) := fun _ => rfl
theorem passageComplete (x_p : BitVec 12) : Statement (.passageComplete x_p) := fun _ => rfl
theorem passageUndoComplete (x_p : BitVec 12) : Statement (.passageUndoComplete x_p) := fun _ => rfl
theorem passageSuspend : Statement (.passageSuspend) := fun _ => rfl
theorem passageResume : Statement (.passageResume) := fun _ => rfl
theorem nop (x_slot : BitVec 7) : Statement (.nop x_slot) := fun _ => rfl
theorem load (x_a : Fin 64) : Statement (.load x_a) := fun _ => rfl
theorem burst (x_a : Fin 64) (x_corrupt : Option (BitVec 17)) : Statement (.burst x_a x_corrupt) := fun _ => rfl
theorem openGroup (x_slab : Fin 8) : Statement (.openGroup x_slab) := fun _ => rfl
theorem close (x_slab : Fin 8) : Statement (.close x_slab) := fun _ => rfl
theorem anchor (x_slab : Fin 8) : Statement (.anchor x_slab) := fun _ => rfl
theorem drain (x_slab : Fin 8) : Statement (.drain x_slab) := fun _ => rfl
theorem spill (x_slab : Fin 8) : Statement (.spill x_slab) := fun _ => rfl
theorem reload (x_slab : Fin 8) : Statement (.reload x_slab) := fun _ => rfl
theorem combine (x_slab : Fin 8) : Statement (.combine x_slab) := fun _ => rfl
theorem veMap (x_slab : Fin 8) : Statement (.veMap x_slab) := fun _ => rfl
theorem veReduce (x_slab : Fin 8) : Statement (.veReduce x_slab) := fun _ => rfl
theorem veSelect (x_slab : Fin 8) : Statement (.veSelect x_slab) := fun _ => rfl
theorem veWideAdd (x_slab : Fin 8) : Statement (.veWideAdd x_slab) := fun _ => rfl
theorem veWideConvert (x_slab : Fin 8) : Statement (.veWideConvert x_slab) := fun _ => rfl
theorem veUpdate (x_slab : Fin 8) (x_badTile : Option Nat) : Statement (.veUpdate x_slab x_badTile) := fun _ => rfl
theorem moveHostToStaging (x_slab : Fin 8) : Statement (.moveHostToStaging x_slab) := fun _ => rfl
theorem moveStagingToHost (x_slab : Fin 8) : Statement (.moveStagingToHost x_slab) := fun _ => rfl
theorem moveHostToHost (x_slab : Fin 8) : Statement (.moveHostToHost x_slab) := fun _ => rfl
theorem send (x_slab : Fin 8) : Statement (.send x_slab) := fun _ => rfl
theorem frameSparse (x_ch : Fin 2) : Statement (.frameSparse x_ch) := fun _ => rfl
theorem frameDenseLeaf (x_ch : Fin 2) : Statement (.frameDenseLeaf x_ch) := fun _ => rfl
theorem frameGather (x_ch : Fin 2) : Statement (.frameGather x_ch) := fun _ => rfl
theorem stats (x_ch : Fin 2) : Statement (.stats x_ch) := fun _ => rfl
theorem gap : Statement (.gap) := fun _ => rfl
theorem notify : Statement (.notify) := fun _ => rfl
theorem stationaryLoadComplete (x_a : Fin 64) : Statement (.stationaryLoadComplete x_a) := fun _ => rfl
theorem feederFill (x_a : Fin 64) (x_m : BitVec 28) : Statement (.feederFill x_a x_m) := fun _ => rfl
theorem residueCheck (x_c : ChunkId) (x_err : Int) : Statement (.residueCheck x_c x_err) := fun _ => rfl
theorem rowReplay (x_a : Fin 64) : Statement (.rowReplay x_a) := fun _ => rfl
theorem chunkPromote (x_c : ChunkId) : Statement (.chunkPromote x_c) := fun _ => rfl
theorem drainTileCheck (x_op : Nat) (x_tile : Nat) : Statement (.drainTileCheck x_op x_tile) := fun _ => rfl
theorem combineComplete (x_op : Nat) : Statement (.combineComplete x_op) := fun _ => rfl
theorem runFinish (x_op : Nat) : Statement (.runFinish x_op) := fun _ => rfl
theorem moveComplete (x_op : Nat) : Statement (.moveComplete x_op) := fun _ => rfl
theorem stagingAllocate (x_slab : Fin 8) (x_part : BitVec 5) : Statement (.stagingAllocate x_slab x_part) := fun _ => rfl
theorem ropeTileArrive (x_hop : Fin 8) : Statement (.ropeTileArrive x_hop) := fun _ => rfl
theorem ropeHoldTimeout (x_hop : Fin 8) : Statement (.ropeHoldTimeout x_hop) := fun _ => rfl
theorem bmpRequest (x_ch : Fin 64) : Statement (.bmpRequest x_ch) := fun _ => rfl
theorem bmpReqCredit (x_ch : Fin 64) : Statement (.bmpReqCredit x_ch) := fun _ => rfl
theorem bmpWdataCredit (x_ch : Fin 64) : Statement (.bmpWdataCredit x_ch) := fun _ => rfl
theorem bmpResponse (x_ch : Fin 64) (x_tag : BitVec 10) (x_code : BitVec 3) (x_data : List Byte) : Statement (.bmpResponse x_ch x_tag x_code x_data) := fun _ => rfl
theorem bmpTimeout (x_ch : Fin 64) (x_tag : BitVec 10) : Statement (.bmpTimeout x_ch x_tag) := fun _ => rfl
theorem bmpChannelDown (x_ch : Fin 64) : Statement (.bmpChannelDown x_ch) := fun _ => rfl
theorem sendAbortNotice : Statement (.sendAbortNotice) := fun _ => rfl
theorem frameTransmit (x_ch : Fin 2) : Statement (.frameTransmit x_ch) := fun _ => rfl
theorem rlpTxCredit (x_ch : Fin 2) : Statement (.rlpTxCredit x_ch) := fun _ => rfl
theorem receiveSparseList (x_ch : Fin 2) (x_err : Bool) (x_bytes : List Byte) : Statement (.receiveSparseList x_ch x_err x_bytes) := fun _ => rfl
theorem receiveDensePartial (x_ch : Fin 2) (x_err : Bool) (x_bytes : List Byte) : Statement (.receiveDensePartial x_ch x_err x_bytes) := fun _ => rfl
theorem receiveGatherTile (x_ch : Fin 2) (x_err : Bool) (x_bytes : List Byte) : Statement (.receiveGatherTile x_ch x_err x_bytes) := fun _ => rfl
theorem receiveStatistics (x_ch : Fin 2) (x_err : Bool) (x_bytes : List Byte) : Statement (.receiveStatistics x_ch x_err x_bytes) := fun _ => rfl
theorem receiveAbortNotice (x_ch : Fin 2) (x_err : Bool) (x_bytes : List Byte) : Statement (.receiveAbortNotice x_ch x_err x_bytes) := fun _ => rfl
theorem receiveOutcome (x_ch : Fin 2) (x_err : Bool) (x_bytes : List Byte) : Statement (.receiveOutcome x_ch x_err x_bytes) := fun _ => rfl
theorem ownerWindowAllocate (x_slab : Fin 8) : Statement (.ownerWindowAllocate x_slab) := fun _ => rfl
theorem ownerAdd (x_group : Fin 64) (x_member : BitVec 16) : Statement (.ownerAdd x_group x_member) := fun _ => rfl
theorem ownerConvert (x_group : Fin 64) (x_u : BitVec 32) : Statement (.ownerConvert x_group x_u) := fun _ => rfl
theorem denseNodeAdd (x_group : Fin 64) (x_u : BitVec 32) (x_level : Fin 17) : Statement (.denseNodeAdd x_group x_u x_level) := fun _ => rfl
theorem statsFragmentSend (x_i : Fin 4) : Statement (.statsFragmentSend x_i) := fun _ => rfl
theorem deadlineExpire : Statement (.deadlineExpire) := fun _ => rfl
theorem outcomeTimeout : Statement (.outcomeTimeout) := fun _ => rfl
theorem peerFail (x_rank : BitVec 16) : Statement (.peerFail x_rank) := fun _ => rfl
theorem laneDown (x_lane : Fin 32) : Statement (.laneDown x_lane) := fun _ => rfl
theorem leakyDecay (x_cls : Fin 5) (x_index : BitVec 16) : Statement (.leakyDecay x_cls x_index) := fun _ => rfl
theorem localisationTest (x_array : Nat) (x_found : Localised) : Statement (.localisationTest x_array x_found) := fun _ => rfl
theorem retirementApply (x_array : Nat) : Statement (.retirementApply x_array) := fun _ => rfl
theorem scrubQuantum (x_unit : Nat) (x_bank : Nat) (x_found : ScrubFinding) : Statement (.scrubQuantum x_unit x_bank x_found) := fun _ => rfl
theorem sensorCalibrationQuantum (x_sense : List (BitVec 16)) : Statement (.sensorCalibrationQuantum x_sense) := fun _ => rfl
theorem spareColumnSelfTest (x_el : Element) (x_ok : Bool) : Statement (.spareColumnSelfTest x_el x_ok) := fun _ => rfl
theorem telemetrySnapshot (x_sense : List (BitVec 16)) : Statement (.telemetrySnapshot x_sense) := fun _ => rfl
theorem lifetimeFlush : Statement (.lifetimeFlush) := fun _ => rfl
theorem forcedBackgroundSlot (x_job : Fin 5) (x_unit : BitVec 20) : Statement (.forcedBackgroundSlot x_job x_unit) := fun _ => rfl
theorem pwrCapStrobe (x_cap : BitVec 10) : Statement (.pwrCapStrobe x_cap) := fun _ => rfl
theorem powerWindow (x_est : Nat) : Statement (.powerWindow x_est) := fun _ => rfl
theorem droopFall : Statement (.droopFall) := fun _ => rfl
theorem droopRise : Statement (.droopRise) := fun _ => rfl
theorem rampStep : Statement (.rampStep) := fun _ => rfl
theorem pwrRampAck : Statement (.pwrRampAck) := fun _ => rfl
theorem rampTimeout : Statement (.rampTimeout) := fun _ => rfl
theorem histogramSecond (x_temp16 : Int) (x_mv : CoreSupply) : Statement (.histogramSecond x_temp16 x_mv) := fun _ => rfl
theorem eventLogWrite (x_source : BitVec 8) : Statement (.eventLogWrite x_source) := fun _ => rfl
theorem tsEpoch : Statement (.tsEpoch) := fun _ => rfl
theorem intDelivery : Statement .intDelivery := fun _ => rfl
theorem moderationExpire (x_t : Fin 8) : Statement (.moderationExpire x_t) := fun _ => rfl
theorem rlpLaneUp (x_lanes : BitVec 32) (x_ver : BitVec 2) : Statement (.rlpLaneUp x_lanes x_ver) := fun _ => rfl
theorem applyOutPulseEnd : Statement (.applyOutPulseEnd) := fun _ => rfl
theorem drainComplete (x_op : Nat) : Statement (.drainComplete x_op) := fun _ => rfl
theorem spillComplete (x_op : Nat) : Statement (.spillComplete x_op) := fun _ => rfl
theorem reloadComplete (x_op : Nat) : Statement (.reloadComplete x_op) := fun _ => rfl

end Sys2Proof.Laws.Wf
end

