-- ==== Sys2Proof/Laws/Tables.lean ====
section
/-! SUPPORT. Sparse tables and byte memories: reading back what was put, other keys unchanged, keys stay rising. -/

namespace Sys2Proof.Laws

variable {α : Type}

theorem lookup_put_self (t : Tab α) (k : Nat) (v : α) : List.lookup k (t.put k v) = some v := by
  induction t with
  | nil => simp [Tab.put]
  | cons x t ih =>
    obtain ⟨k', v'⟩ := x
    simp only [Tab.put]
    split
    · simp
    · split
      · simp
      · rename_i h1 h2
        have : (k == k') = false := by simpa using h2
        simp [List.lookup, this, ih]

theorem lookup_put_other (t : Tab α) (k j : Nat) (v : α) (h : j ≠ k) :
    List.lookup j (t.put k v) = List.lookup j t := by
  have hb : (j == k) = false := by simpa using h
  induction t with
  | nil => simp [Tab.put, List.lookup, hb]
  | cons x t ih =>
    obtain ⟨k', v'⟩ := x
    simp only [Tab.put]
    split
    · simp [List.lookup, hb]
    · split
      · rename_i h2; subst h2; simp [List.lookup, hb]
      · simp only [List.lookup, ih]

@[simp] theorem get_put_self (d : α) (t : Tab α) (k : Nat) (v : α) : Tab.get d (t.put k v) k = v := by
  simp [Tab.get, lookup_put_self]
theorem get_put_other (d : α) (t : Tab α) (k j : Nat) (v : α) (h : j ≠ k) : Tab.get d (t.put k v) j = Tab.get d t j := by
  simp [Tab.get, lookup_put_other t k j v h]
@[simp] theorem get_upd_self (d : α) (t : Tab α) (k : Nat) (f : α → α) : Tab.get d (t.upd d k f) k = f (Tab.get d t k) := by
  simp [Tab.upd]
theorem get_upd_other (d : α) (t : Tab α) (k j : Nat) (f : α → α) (h : j ≠ k) :
    Tab.get d (t.upd d k f) j = Tab.get d t j := by
  simp [Tab.upd, get_put_other d t k j _ h]

/-- Every key of a table after `put` is the new one or was there. -/
theorem mem_put {t : Tab α} {k : Nat} {v : α} {x : Nat × α} (h : x ∈ t.put k v) : x = (k, v) ∨ x ∈ t := by
  induction t with
  | nil => simpa [Tab.put] using h
  | cons y t ih =>
    obtain ⟨k', v'⟩ := y
    simp only [Tab.put] at h
    split at h
    · simpa using h
    · split at h
      · rcases List.mem_cons.1 h with h | h
        · exact .inl h
        · exact .inr (List.mem_cons_of_mem _ h)
      · rcases List.mem_cons.1 h with h | h
        · exact .inr (h ▸ List.mem_cons_self ..)
        · rcases ih h with h | h
          · exact .inl h
          · exact .inr (List.mem_cons_of_mem _ h)

theorem put_sorted {t : Tab α} {k : Nat} {v : α} (h : t.sorted) : (t.put k v).sorted := by
  induction t with
  | nil => simp [Tab.put, Tab.sorted]
  | cons x t ih =>
    obtain ⟨k', v'⟩ := x
    obtain ⟨h1, h2⟩ := List.pairwise_cons.1 h
    simp only [Tab.put]
    split
    · rename_i hk
      refine List.pairwise_cons.2 ⟨?_, h⟩
      intro y hy
      rcases List.mem_cons.1 hy with rfl | hy
      · exact hk
      · exact Nat.lt_trans hk (h1 y hy)
    · split
      · rename_i hk; subst hk; exact List.pairwise_cons.2 ⟨h1, h2⟩
      · rename_i ha hb
        refine List.pairwise_cons.2 ⟨?_, ih h2⟩
        intro y hy
        rcases mem_put hy with rfl | hy
        · exact Nat.lt_of_le_of_ne (Nat.le_of_not_lt ha) (fun e => hb e.symm)
        · exact h1 y hy

theorem dropRange_sorted {t : Tab α} (lo n : Nat) (h : t.sorted) : (t.dropRange lo n).sorted :=
  List.Pairwise.filter _ h

/-! Byte memories. -/

theorem setByte_wf {m : Mem} (a : Nat) (b : Byte) (h : Mem.wf m) : Mem.wf (m.setByte a b) := put_sorted h
theorem setBytes_wf {m : Mem} (a : Nat) (bs : List Byte) (h : Mem.wf m) : Mem.wf (m.setBytes a bs) := by
  induction bs generalizing m a with
  | nil => exact h
  | cons b bs ih => exact ih _ (setByte_wf a b h)

/-- A byte outside the written range reads as before. -/
theorem lay_wf {m : Mem} (k : Mem) (h : Mem.wf m) : Mem.wf (m.lay k) := by
  unfold Mem.lay
  induction k generalizing m with
  | nil => exact h
  | cons x xs ih => exact ih (setByte_wf x.1 x.2 h)
theorem byte_setBytes_other (m : Mem) (a x : Nat) (bs : List Byte) (h : x < a ∨ a + bs.length ≤ x) :
    (m.setBytes a bs).byte? x = m.byte? x := by
  induction bs generalizing m a with
  | nil => rfl
  | cons b bs ih =>
    simp only [List.length_cons] at h
    rw [Mem.setBytes, ih _ _ (by omega), Mem.byte?, Mem.setByte, lookup_put_other _ _ _ _ (by omega), Mem.byte?]

/-- A byte inside the written range reads as what was written there. -/
theorem byte_setBytes_inside (m : Mem) (a i : Nat) (bs : List Byte) (h : i < bs.length) :
    (m.setBytes a bs).byte? (a + i) = bs[i]? := by
  induction bs generalizing m a i with
  | nil => simp at h
  | cons b bs ih =>
    cases i with
    | zero =>
      rw [Mem.setBytes, byte_setBytes_other _ _ _ _ (by omega), Mem.byte?, Mem.setByte, Nat.add_zero, lookup_put_self]
      rfl
    | succ i =>
      simp only [List.length_cons] at h
      rw [Mem.setBytes, show a + (i + 1) = a + 1 + i by omega, ih _ _ _ (by omega)]
      rfl

end Sys2Proof.Laws
end

