-- ==== Sys2Proof/Laws/Sound.lean ====
section
/-! SUPPORT. How `Sound` is carried over an update of the state, a fold and a table write. -/

namespace Sys2Proof.Laws

open Sys2Proof.Machine Sys2Proof.Safety

theorem sound_good {s : State} (h : Good s.hostMem s.staging.bytes s.pins.rstN s.boot.stage s.psc.run s.psc.stepOn s.ras.lostWait
    s.evt.queues s.evt.head s.evt.tail) : Sound s := h
theorem good_sound {s : State} (h : Sound s) : Good s.hostMem s.staging.bytes s.pins.rstN s.boot.stage s.psc.run s.psc.stepOn
    s.ras.lostWait s.evt.queues s.evt.head s.evt.tail := h

/-- The scheduler may have stopped, or the wait for an outcome ended: less is asked then. -/
theorem good_less {s : State} {r o l : Bool} (h : Sound s) (hr : r = true → s.psc.run = true)
    (ho : o = true → s.psc.stepOn = true) (hl : l = true → s.ras.lostWait = true) :
    Good s.hostMem s.staging.bytes s.pins.rstN s.boot.stage r o l s.evt.queues s.evt.head s.evt.tail := by
  refine ⟨h.1, h.2.1, h.2.2.1, h.2.2.2.1, ?_, h.2.2.2.2.2⟩
  intro hc
  refine h.2.2.2.2.1 ?_
  simp only [Bool.or_eq_true] at hc ⊢
  rcases hc with (hc | hc) | hc
  · exact .inl (.inl (hr hc))
  · exact .inl (.inr (ho hc))
  · exact .inr (hl hc)

/-- A fold of an operation that keeps `Sound`. -/
theorem sound_foldl {β : Type} {f : State → β → State} (hf : ∀ t x, Sound t → Sound (f t x)) (l : List β) {s : State}
    (h : Sound s) : Sound (l.foldl f s) := by
  induction l generalizing s with
  | nil => exact h
  | cons x l ih => exact ih (hf s x h)

/-- The same where the fold carries more than the state. -/
theorem sound_foldl_on {β γ : Type} (p : γ → State) {f : γ → β → γ} (hf : ∀ t x, Sound (p t) → Sound (p (f t x))) (l : List β)
    {s : γ} (h : Sound (p s)) : Sound (p (l.foldl f s)) := by
  induction l generalizing s with
  | nil => exact h
  | cons x l ih => exact ih (hf s x h)

/-- Sound, with no step of training in hand and `rst_n` high: what a change of the stage needs. -/
def Still (s : State) : Prop :=
  Sound s ∧ s.pins.rstN = true ∧ s.psc.run = false ∧ s.psc.stepOn = false ∧ s.ras.lostWait = false
theorem sound_still {s : State} (h : Sound s) (h0 : s.boot.stage ≠ 0) (hs : s.boot.stage ≠ 10) : Still s := by
  have h4 := h.2.2.2.2.1
  have : ¬(s.psc.run || s.psc.stepOn || s.ras.lostWait) = true := fun hc => hs (h4 hc)
  refine ⟨h, ?_, by simpa [and_assoc] using this⟩
  cases hr : s.pins.rstN
  · exact absurd (h.2.2.2.1 hr) h0
  · rfl
theorem still_stage {s : State} (st : BitVec 4) (h : Still s) (hst : st.toNat ≤ 10 ∨ st = 15) : Sound (setStage s st) := by
  obtain ⟨⟨h1, h2, _, _, _, h6⟩, hr, ha, hb, hc⟩ := h
  exact ⟨h1, h2, hst, by intro hx; simp [setStage, hr] at hx, by intro hx; simp [setStage, ha, hb, hc] at hx, h6⟩
/-- `Still` in an updated state, from the state it was made of. -/
theorem still_of {s t : State} (h : Still s) (ht : Sound t) (hr : t.pins.rstN = s.pins.rstN) (ha : t.psc.run = s.psc.run)
    (hb : t.psc.stepOn = s.psc.stepOn) (hc : t.ras.lostWait = s.ras.lostWait) : Still t :=
  ⟨ht, hr ▸ h.2.1, ha ▸ h.2.2.1, hb ▸ h.2.2.2.1, hc ▸ h.2.2.2.2⟩

theorem sound_queue {s : State} (h : Sound s) (k : Nat) : (Tab.get [] s.evt.queues k).length ≤ 8 := h.2.2.2.2.2.1 k
theorem sound_hostWf {s : State} (h : Sound s) : Mem.wf s.hostMem := h.1
theorem sound_stagingWf {s : State} (h : Sound s) : Mem.wf s.staging.bytes := h.2.1

theorem writeHost_sound {s : State} {a : Nat} {bs : List Byte} (h : Sound s) : Sound (writeHost s a bs) :=
  ⟨setBytes_wf a bs h.1, h.2⟩
theorem layHost_sound {s : State} {k : Mem} (h : Sound s) : Sound (layHost s k) := ⟨lay_wf k h.1, h.2⟩
theorem stWrite_sound {s : State} {a : Nat} {bs : List Byte} (h : Sound s) : Sound (stWrite s a bs) :=
  ⟨h.1, setBytes_wf a bs h.2.1, h.2.2⟩

/-- Queues where one source has at most 8 records. -/
theorem queues_put {q : Tab (List EvRec)} (h : ∀ k, (Tab.get [] q k).length ≤ 8) (k : Nat) {l : List EvRec} (hl : l.length ≤ 8) :
    ∀ j, (Tab.get [] (q.put k l) j).length ≤ 8 := by
  intro j
  by_cases hj : j = k
  · subst hj; simpa using hl
  · rw [get_put_other _ _ _ _ _ hj]; exact h j

end Sys2Proof.Laws
end

