-- ==== Sys2Proof/Laws/SoundOps.lean ====
section
/-! SUPPORT. The operations of Machine/Ops.lean keep `Sound`. -/

namespace Sys2Proof.Laws

open Sys2Proof.Machine Sys2Proof.Safety

theorem bumpFree_sound {s : State} (h_s : Sound s) :
    Sound (bumpFree s) := by
  unfold bumpFree
  try dsimp only
  repeat' first
    | with_reducible assumption
    | intro _
    | split
    | (refine sound_good ?_; dsimp only; refine good_sound ?_)

theorem setLive_sound {s : State} {a : Nat} {v : Word} (h_s : Sound s) :
    Sound (setLive s a v) := by
  unfold setLive
  try dsimp only
  repeat' first
    | with_reducible assumption
    | intro _
    | split
    | (refine sound_good ?_; dsimp only; refine good_sound ?_)

theorem setShadow_sound {s : State} {a : Nat} {v : Word} (h_s : Sound s) :
    Sound (setShadow s a v) := by
  unfold setShadow
  try dsimp only
  repeat' first
    | with_reducible assumption
    | intro _
    | split
    | (refine sound_good ?_; dsimp only; refine good_sound ?_)

theorem setCore_sound {s : State} {n : Nat} {c : Core} (h_s : Sound s) :
    Sound (setCore s n c) := by
  unfold setCore
  try dsimp only
  repeat' first
    | with_reducible assumption
    | intro _
    | split
    | (refine sound_good ?_; dsimp only; refine good_sound ?_)

theorem setReq_sound {s : State} {r : Req} {q : ReqState} (h_s : Sound s) :
    Sound (setReq s r q) := by
  unfold setReq
  try dsimp only
  repeat' first
    | with_reducible assumption
    | intro _
    | split
    | (refine sound_good ?_; dsimp only; refine good_sound ?_)

theorem setMbx_sound {s : State} {n : Nat} {m : Mailbox} (h_s : Sound s) :
    Sound (setMbx s n m) := by
  unfold setMbx
  try dsimp only
  repeat' first
    | with_reducible assumption
    | intro _
    | split
    | (refine sound_good ?_; dsimp only; refine good_sound ?_)

theorem setPassage_sound {s : State} {p : Nat} {x : Passage} (h_s : Sound s) :
    Sound (setPassage s p x) := by
  unfold setPassage
  try dsimp only
  repeat' first
    | with_reducible assumption
    | intro _
    | split
    | (refine sound_good ?_; dsimp only; refine good_sound ?_)

theorem setVer_sound {s : State} {t : Nat} {v : TensorVer} (h_s : Sound s) :
    Sound (setVer s t v) := by
  unfold setVer
  try dsimp only
  repeat' first
    | with_reducible assumption
    | intro _
    | split
    | (refine sound_good ?_; dsimp only; refine good_sound ?_)

theorem setLayer_sound {s : State} {l : Nat} {x : Layer} (h_s : Sound s) :
    Sound (setLayer s l x) := by
  unfold setLayer
  try dsimp only
  repeat' first
    | with_reducible assumption
    | intro _
    | split
    | (refine sound_good ?_; dsimp only; refine good_sound ?_)

theorem setArray_sound {s : State} {a : Nat} {x : ArrayState} (h_s : Sound s) :
    Sound (setArray s a x) := by
  unfold setArray
  try dsimp only
  repeat' first
    | with_reducible assumption
    | intro _
    | split
    | (refine sound_good ?_; dsimp only; refine good_sound ?_)

theorem setVe_sound {s : State} {n : Nat} {v : Ve} (h_s : Sound s) :
    Sound (setVe s n v) := by
  unfold setVe
  try dsimp only
  repeat' first
    | with_reducible assumption
    | intro _
    | split
    | (refine sound_good ?_; dsimp only; refine good_sound ?_)

theorem setChan_sound {s : State} {c : Nat} {x : Chan} (h_s : Sound s) :
    Sound (setChan s c x) := by
  unfold setChan
  try dsimp only
  repeat' first
    | with_reducible assumption
    | intro _
    | split
    | (refine sound_good ?_; dsimp only; refine good_sound ?_)

theorem setRlp_sound {s : State} {c : Nat} {x : RlpChan} (h_s : Sound s) :
    Sound (setRlp s c x) := by
  unfold setRlp
  try dsimp only
  repeat' first
    | with_reducible assumption
    | intro _
    | split
    | (refine sound_good ?_; dsimp only; refine good_sound ?_)

theorem setGroup_sound {s : State} {k : Nat} {g : Group} (h_s : Sound s) :
    Sound (setGroup s k g) := by
  unfold setGroup
  try dsimp only
  repeat' first
    | with_reducible assumption
    | intro _
    | split
    | (refine sound_good ?_; dsimp only; refine good_sound ?_)

theorem setTotal_sound {s : State} {k : Nat} {v : Int} (h_s : Sound s) :
    Sound (setTotal s k v) := by
  unfold setTotal
  try dsimp only
  repeat' first
    | with_reducible assumption
    | intro _
    | split
    | (refine sound_good ?_; dsimp only; refine good_sound ?_)

theorem countLife_sound {s : State} {i : Nat} {n : Nat} (h_s : Sound s) :
    Sound (countLife s i n) := by
  unfold countLife
  try dsimp only
  repeat' first
    | with_reducible assumption
    | intro _
    | split
    | (refine sound_good ?_; dsimp only; refine good_sound ?_)

theorem passAclk_sound {s : State} {n : Nat} (h_s : Sound s) :
    Sound (passAclk s n) := by
  unfold passAclk
  try dsimp only
  repeat' first
    | with_reducible assumption
    | with_reducible refine countLife_sound ?_
    | intro _
    | split
    | (refine sound_good ?_; dsimp only; refine good_sound ?_)

theorem intPulse_sound {s : State} {n : Nat} (h_s : Sound s) :
    Sound (intPulse s n) := by
  unfold intPulse
  try dsimp only
  repeat' first
    | with_reducible assumption
    | intro _
    | split
    | (refine sound_good ?_; dsimp only; refine good_sound ?_)

theorem levelEdge_sound {now : BitVec 256} {s : State} {n : Nat} (h_s : Sound s) :
    Sound (levelEdge now s n) := by
  unfold levelEdge
  try dsimp only
  repeat' first
    | with_reducible assumption
    | intro _
    | split
    | (refine sound_good ?_; dsimp only; refine good_sound ?_)

theorem sampleLevels_sound {s : State} (h_s : Sound s) :
    Sound (sampleLevels s) := by
  unfold sampleLevels
  try dsimp only
  repeat' first
    | with_reducible assumption
    | with_reducible refine sound_foldl ?_ _ ?_
    | with_reducible refine levelEdge_sound ?_
    | intro _
    | split
    | (refine sound_good ?_; dsimp only; refine good_sound ?_)

theorem setUnits_sound {s : State} {q : Nat} {u : Units} (h_s : Sound s) :
    Sound (setUnits s q u) := by
  unfold setUnits
  try dsimp only
  repeat' first
    | with_reducible assumption
    | intro _
    | split
    | (refine sound_good ?_; dsimp only; refine good_sound ?_)

theorem unitOut_sound {s : State} {q : Nat} {n : Nat} (h_s : Sound s) :
    Sound (unitOut s q n) := by
  unfold unitOut
  try dsimp only
  repeat' first
    | with_reducible assumption
    | with_reducible refine setUnits_sound ?_
    | intro _
    | split
    | (refine sound_good ?_; dsimp only; refine good_sound ?_)

theorem unitBack_sound {s : State} {q : Nat} {n : Nat} (h_s : Sound s) :
    Sound (unitBack s q n) := by
  unfold unitBack
  try dsimp only
  repeat' first
    | with_reducible assumption
    | with_reducible refine setUnits_sound ?_
    | intro _
    | split
    | (refine sound_good ?_; dsimp only; refine good_sound ?_)

theorem unitReclaim_sound {s : State} {q : Nat} {n : Nat} (h_s : Sound s) :
    Sound (unitReclaim s q n) := by
  unfold unitReclaim
  try dsimp only
  repeat' first
    | with_reducible assumption
    | with_reducible refine setUnits_sound ?_
    | intro _
    | split
    | (refine sound_good ?_; dsimp only; refine good_sound ?_)

theorem loseEvents_sound {s : State} {n : Nat} (h_s : Sound s) :
    Sound (loseEvents s n) := by
  unfold loseEvents
  try dsimp only
  repeat' first
    | with_reducible assumption
    | with_reducible refine countLife_sound ?_
    | with_reducible refine intPulse_sound ?_
    | intro _
    | split
    | (refine sound_good ?_; dsimp only; refine good_sound ?_)

/-- A record joins its source's queue only where fewer than 8 wait (R309). -/
theorem raise_sound {s : State} {source code : Nat} {payload : BitVec 24} (h_s : Sound s) :
    Sound (raise s source code payload) := by
  unfold raise
  dsimp only
  have h1 : Sound (unitOut { s with evt := { s.evt with seq := s.evt.seq.put source (Tab.get (0 : Word) s.evt.seq source + 1) } } 8 1) :=
    unitOut_sound (sound_good (good_sound h_s))
  split
  · rename_i hq
    exact ⟨h1.1, h1.2.1, h1.2.2.1, h1.2.2.2.1, h1.2.2.2.2.1, queues_put h1.2.2.2.2.2.1 source (by simp; omega), h1.2.2.2.2.2.2⟩
  · exact unitBack_sound (loseEvents_sound h1)

theorem writeBehind_sound {s : State} {a : Nat} {bs : List Byte} (h_s : Sound s) :
    Sound (writeBehind s a bs) := by
  unfold writeBehind
  try dsimp only
  repeat' first
    | with_reducible assumption
    | with_reducible refine writeHost_sound ?_
    | intro _
    | split
    | (refine sound_good ?_; dsimp only; refine good_sound ?_)

theorem portWrite_sound {s : State} {a : Nat} {bs : List Byte} (h_s : Sound s) :
    Sound (portWrite s a bs) := by
  unfold portWrite
  try dsimp only
  repeat' first
    | with_reducible assumption
    | with_reducible refine raise_sound ?_
    | with_reducible refine writeBehind_sound ?_
    | intro _
    | split
    | (refine sound_good ?_; dsimp only; refine good_sound ?_)

theorem raiseOnceStep_sound {s : State} {source : Nat} {code : Nat} {key : Nat} {payload : BitVec 24} (h_s : Sound s) :
    Sound (raiseOnceStep s source code key payload) := by
  unfold raiseOnceStep
  try dsimp only
  repeat' first
    | with_reducible assumption
    | with_reducible refine raise_sound ?_
    | intro _
    | split
    | (refine sound_good ?_; dsimp only; refine good_sound ?_)

theorem noteTable_sound {s : State} {a : Nat} {n : Nat} (h_s : Sound s) :
    Sound (noteTable s a n) := by
  unfold noteTable
  try dsimp only
  repeat' first
    | with_reducible assumption
    | with_reducible refine raiseOnceStep_sound ?_
    | intro _
    | split
    | (refine sound_good ?_; dsimp only; refine good_sound ?_)

theorem raiseOncePassage_sound {s : State} {source : Nat} {code : Nat} {key : Nat} {payload : BitVec 24} (h_s : Sound s) :
    Sound (raiseOncePassage s source code key payload) := by
  unfold raiseOncePassage
  try dsimp only
  repeat' first
    | with_reducible assumption
    | with_reducible refine raise_sound ?_
    | intro _
    | split
    | (refine sound_good ?_; dsimp only; refine good_sound ?_)

theorem raiseOpen_sound {s : State} {source : Nat} {code : Nat} (h_s : Sound s) :
    Sound (raiseOpen s source code) := by
  unfold raiseOpen
  try dsimp only
  repeat' first
    | with_reducible assumption
    | with_reducible refine bumpFree_sound ?_
    | with_reducible refine raise_sound ?_
    | intro _
    | split
    | (refine sound_good ?_; dsimp only; refine good_sound ?_)

theorem raiseOpenStep_sound {s : State} {source : Nat} {code : Nat} {key : Nat} (h_s : Sound s) :
    Sound (raiseOpenStep s source code key) := by
  unfold raiseOpenStep
  try dsimp only
  repeat' first
    | with_reducible assumption
    | with_reducible refine bumpFree_sound ?_
    | with_reducible refine raiseOnceStep_sound ?_
    | intro _
    | split
    | (refine sound_good ?_; dsimp only; refine good_sound ?_)

theorem raiseOpenPassage_sound {s : State} {source : Nat} {code : Nat} {key : Nat} (h_s : Sound s) :
    Sound (raiseOpenPassage s source code key) := by
  unfold raiseOpenPassage
  try dsimp only
  repeat' first
    | with_reducible assumption
    | with_reducible refine bumpFree_sound ?_
    | with_reducible refine raiseOncePassage_sound ?_
    | intro _
    | split
    | (refine sound_good ?_; dsimp only; refine good_sound ?_)

theorem reservedWrite_sound {s : State} {req : Req} {addr : Nat} (h_s : Sound s) :
    Sound (reservedWrite s req addr) := by
  unfold reservedWrite
  try dsimp only
  repeat' first
    | with_reducible assumption
    | with_reducible refine raise_sound ?_
    | intro _
    | split
    | (refine sound_good ?_; dsimp only; refine good_sound ?_)

theorem reservedRead_sound {s : State} {source : Nat} {addr : Nat} (h_s : Sound s) :
    Sound (reservedRead s source addr) := by
  unfold reservedRead
  try dsimp only
  repeat' first
    | with_reducible assumption
    | with_reducible refine raise_sound ?_
    | intro _
    | split
    | (refine sound_good ?_; dsimp only; refine good_sound ?_)

theorem countStall_sound {s : State} {cause : Nat} {n : Nat} (h_s : Sound s) :
    Sound (countStall s cause n) := by
  unfold countStall
  try dsimp only
  repeat' first
    | with_reducible assumption
    | intro _
    | split
    | (refine sound_good ?_; dsimp only; refine good_sound ?_)

theorem dropHold_sound {s : State} {req : Req} (h_s : Sound s) :
    Sound (dropHold s req) := by
  unfold dropHold
  try dsimp only
  repeat' first
    | with_reducible assumption
    | with_reducible refine setReq_sound ?_
    | intro _
    | split
    | (refine sound_good ?_; dsimp only; refine good_sound ?_)

theorem portAccess_sound {s : State} {req : Req} {f : State → State} (h_s : Sound s) (h_f : ∀ t, Sound t → Sound (f t)) :
    Sound (portAccess s req f) := by
  unfold portAccess
  try dsimp only
  repeat' first
    | with_reducible assumption
    | refine h_f _ ?_
    | with_reducible refine dropHold_sound ?_
    | intro _
    | split
    | (refine sound_good ?_; dsimp only; refine good_sound ?_)

theorem addOp_sound {s : State} {o : Op} (h_s : Sound s) :
    Sound (addOp s o) := by
  unfold addOp
  try dsimp only
  repeat' first
    | with_reducible assumption
    | intro _
    | split
    | (refine sound_good ?_; dsimp only; refine good_sound ?_)

theorem finishOp_sound {s : State} {id : Nat} (h_s : Sound s) :
    Sound (finishOp s id) := by
  unfold finishOp
  try dsimp only
  repeat' first
    | with_reducible assumption
    | intro _
    | split
    | (refine sound_good ?_; dsimp only; refine good_sound ?_)

theorem setOpKind_sound {s : State} {id : Nat} {k : OpKind} (h_s : Sound s) :
    Sound (setOpKind s id k) := by
  unfold setOpKind
  try dsimp only
  repeat' first
    | with_reducible assumption
    | intro _
    | split
    | (refine sound_good ?_; dsimp only; refine good_sound ?_)

theorem setOp_sound {s : State} {id : Nat} {f : Op → Op} (h_s : Sound s) :
    Sound (setOp s id f) := by
  unfold setOp
  try dsimp only
  repeat' first
    | with_reducible assumption
    | intro _
    | split
    | (refine sound_good ?_; dsimp only; refine good_sound ?_)

theorem takeSlot_sound {s t : State} {p : Slot → Bool} {sl : Slot} (h_s : Sound s) (h : takeSlot s p = some (sl, t)) : Sound t := by
  unfold takeSlot at h
  split at h
  · split at h
    · obtain ⟨_, rfl⟩ := Prod.mk.inj (Option.some.inj h)
      exact sound_good (good_sound h_s)
    · cases h
  · cases h

end Sys2Proof.Laws
end

