-- ==== Sys2Proof/Laws/State.lean ====
section
/-! SUPPORT. What the shared operations leave of the state, one equation per component that an operation does not touch;
what they put where they write. -/

namespace Sys2Proof.Laws

open Sys2Proof.Machine

/-! Components an operation does not touch. -/

@[simp] theorem bumpFree_frame {s : State} :
    (bumpFree s).pending = s.pending ∧ (bumpFree s).hostMem = s.hostMem ∧ (bumpFree s).silicon = s.silicon ∧
    (bumpFree s).pins = s.pins ∧ (bumpFree s).boot = s.boot ∧ (bumpFree s).clock = s.clock ∧ (bumpFree s).regs =
    s.regs ∧ (bumpFree s).reqs = s.reqs ∧ (bumpFree s).evt = s.evt ∧ (bumpFree s).intc = s.intc ∧ (bumpFree s).mbx =
    s.mbx ∧ (bumpFree s).cores = s.cores ∧ (bumpFree s).img = s.img ∧ (bumpFree s).psc = s.psc ∧ (bumpFree s).vers =
    s.vers ∧ (bumpFree s).gov = s.gov ∧ (bumpFree s).sump = s.sump ∧ (bumpFree s).ves = s.ves ∧ (bumpFree s).staging
    = s.staging ∧ (bumpFree s).bmp = s.bmp ∧ (bumpFree s).rope = s.rope ∧ (bumpFree s).rlp = s.rlp ∧ (bumpFree
    s).ras = s.ras ∧ (bumpFree s).life = s.life ∧ (bumpFree s).pwr = s.pwr ∧ (bumpFree s).wrap = s.wrap := ⟨rfl, rfl, rfl, rfl, rfl, rfl, rfl, rfl, rfl, rfl, rfl, rfl, rfl, rfl, rfl, rfl, rfl, rfl, rfl, rfl, rfl, rfl, rfl, rfl, rfl, rfl⟩
@[simp] theorem writeHost_frame {s : State} {a : Nat} {bs : List Byte} :
    (writeHost s a bs).pending = s.pending ∧ (writeHost s a bs).freeCtr = s.freeCtr ∧ (writeHost s a bs).silicon =
    s.silicon ∧ (writeHost s a bs).pins = s.pins ∧ (writeHost s a bs).boot = s.boot ∧ (writeHost s a bs).clock =
    s.clock ∧ (writeHost s a bs).regs = s.regs ∧ (writeHost s a bs).reqs = s.reqs ∧ (writeHost s a bs).evt = s.evt ∧
    (writeHost s a bs).intc = s.intc ∧ (writeHost s a bs).mbx = s.mbx ∧ (writeHost s a bs).cores = s.cores ∧
    (writeHost s a bs).img = s.img ∧ (writeHost s a bs).psc = s.psc ∧ (writeHost s a bs).vers = s.vers ∧ (writeHost
    s a bs).gov = s.gov ∧ (writeHost s a bs).sump = s.sump ∧ (writeHost s a bs).ves = s.ves ∧ (writeHost s a
    bs).staging = s.staging ∧ (writeHost s a bs).bmp = s.bmp ∧ (writeHost s a bs).rope = s.rope ∧ (writeHost s a
    bs).rlp = s.rlp ∧ (writeHost s a bs).ras = s.ras ∧ (writeHost s a bs).life = s.life ∧ (writeHost s a bs).pwr =
    s.pwr ∧ (writeHost s a bs).wrap = s.wrap := ⟨rfl, rfl, rfl, rfl, rfl, rfl, rfl, rfl, rfl, rfl, rfl, rfl, rfl, rfl, rfl, rfl, rfl, rfl, rfl, rfl, rfl, rfl, rfl, rfl, rfl, rfl⟩
@[simp] theorem layHost_frame {s : State} {k : Mem} :
    (layHost s k).pending = s.pending ∧ (layHost s k).freeCtr = s.freeCtr ∧ (layHost s k).silicon =
    s.silicon ∧ (layHost s k).pins = s.pins ∧ (layHost s k).boot = s.boot ∧ (layHost s k).clock =
    s.clock ∧ (layHost s k).regs = s.regs ∧ (layHost s k).reqs = s.reqs ∧ (layHost s k).evt = s.evt ∧
    (layHost s k).intc = s.intc ∧ (layHost s k).mbx = s.mbx ∧ (layHost s k).cores = s.cores ∧
    (layHost s k).img = s.img ∧ (layHost s k).psc = s.psc ∧ (layHost s k).vers = s.vers ∧ (layHost s k).gov = s.gov ∧ (layHost s k).sump = s.sump ∧ (layHost s k).ves = s.ves ∧ (layHost s k).staging = s.staging ∧ (layHost s k).bmp = s.bmp ∧ (layHost s k).rope = s.rope ∧ (layHost s k).rlp = s.rlp ∧ (layHost s k).ras = s.ras ∧ (layHost s k).life = s.life ∧ (layHost s k).pwr =
    s.pwr ∧ (layHost s k).wrap = s.wrap := ⟨rfl, rfl, rfl, rfl, rfl, rfl, rfl, rfl, rfl, rfl, rfl, rfl, rfl, rfl, rfl, rfl, rfl, rfl, rfl, rfl, rfl, rfl, rfl, rfl, rfl, rfl⟩
@[simp] theorem writeBehind_frame {s : State} {a : Nat} {bs : List Byte} :
    (writeBehind s a bs).pending = s.pending ∧ (writeBehind s a bs).freeCtr = s.freeCtr ∧ (writeBehind s a bs).silicon =
    s.silicon ∧ (writeBehind s a bs).pins = s.pins ∧ (writeBehind s a bs).boot = s.boot ∧ (writeBehind s a bs).clock =
    s.clock ∧ (writeBehind s a bs).regs = s.regs ∧ (writeBehind s a bs).reqs = s.reqs ∧ (writeBehind s a bs).evt = s.evt ∧
    (writeBehind s a bs).intc = s.intc ∧ (writeBehind s a bs).mbx = s.mbx ∧ (writeBehind s a bs).cores = s.cores ∧
    (writeBehind s a bs).img = s.img ∧ (writeBehind s a bs).psc = s.psc ∧ (writeBehind s a bs).vers = s.vers ∧ (writeBehind s a bs).gov = s.gov ∧ (writeBehind s a bs).sump = s.sump ∧ (writeBehind s a bs).ves = s.ves ∧ (writeBehind s a bs).staging = s.staging ∧ (writeBehind s a bs).rope = s.rope ∧ (writeBehind s a bs).rlp = s.rlp ∧ (writeBehind s a bs).ras = s.ras ∧ (writeBehind s a bs).life = s.life ∧ (writeBehind s a bs).pwr =
    s.pwr ∧ (writeBehind s a bs).wrap = s.wrap := ⟨rfl, rfl, rfl, rfl, rfl, rfl, rfl, rfl, rfl, rfl, rfl, rfl, rfl, rfl, rfl, rfl, rfl, rfl, rfl, rfl, rfl, rfl, rfl, rfl, rfl⟩
@[simp] theorem stWrite_frame {s : State} {a : Nat} {bs : List Byte} :
    (stWrite s a bs).pending = s.pending ∧ (stWrite s a bs).freeCtr = s.freeCtr ∧ (stWrite s a bs).hostMem =
    s.hostMem ∧ (stWrite s a bs).silicon = s.silicon ∧ (stWrite s a bs).pins = s.pins ∧ (stWrite s a bs).boot =
    s.boot ∧ (stWrite s a bs).clock = s.clock ∧ (stWrite s a bs).regs = s.regs ∧ (stWrite s a bs).reqs = s.reqs ∧
    (stWrite s a bs).evt = s.evt ∧ (stWrite s a bs).intc = s.intc ∧ (stWrite s a bs).mbx = s.mbx ∧ (stWrite s a
    bs).cores = s.cores ∧ (stWrite s a bs).img = s.img ∧ (stWrite s a bs).psc = s.psc ∧ (stWrite s a bs).vers =
    s.vers ∧ (stWrite s a bs).gov = s.gov ∧ (stWrite s a bs).sump = s.sump ∧ (stWrite s a bs).ves = s.ves ∧ (stWrite
    s a bs).bmp = s.bmp ∧ (stWrite s a bs).rope = s.rope ∧ (stWrite s a bs).rlp = s.rlp ∧ (stWrite s a bs).ras =
    s.ras ∧ (stWrite s a bs).life = s.life ∧ (stWrite s a bs).pwr = s.pwr ∧ (stWrite s a bs).wrap = s.wrap := ⟨rfl, rfl, rfl, rfl, rfl, rfl, rfl, rfl, rfl, rfl, rfl, rfl, rfl, rfl, rfl, rfl, rfl, rfl, rfl, rfl, rfl, rfl, rfl, rfl, rfl, rfl⟩
@[simp] theorem setLive_frame {s : State} {a : Nat} {v : Word} :
    (setLive s a v).pending = s.pending ∧ (setLive s a v).freeCtr = s.freeCtr ∧ (setLive s a v).hostMem = s.hostMem
    ∧ (setLive s a v).silicon = s.silicon ∧ (setLive s a v).pins = s.pins ∧ (setLive s a v).boot = s.boot ∧ (setLive
    s a v).clock = s.clock ∧ (setLive s a v).reqs = s.reqs ∧ (setLive s a v).evt = s.evt ∧ (setLive s a v).intc =
    s.intc ∧ (setLive s a v).mbx = s.mbx ∧ (setLive s a v).cores = s.cores ∧ (setLive s a v).img = s.img ∧ (setLive
    s a v).psc = s.psc ∧ (setLive s a v).vers = s.vers ∧ (setLive s a v).gov = s.gov ∧ (setLive s a v).sump = s.sump
    ∧ (setLive s a v).ves = s.ves ∧ (setLive s a v).staging = s.staging ∧ (setLive s a v).bmp = s.bmp ∧ (setLive s a
    v).rope = s.rope ∧ (setLive s a v).rlp = s.rlp ∧ (setLive s a v).ras = s.ras ∧ (setLive s a v).life = s.life ∧
    (setLive s a v).pwr = s.pwr ∧ (setLive s a v).wrap = s.wrap := ⟨rfl, rfl, rfl, rfl, rfl, rfl, rfl, rfl, rfl, rfl, rfl, rfl, rfl, rfl, rfl, rfl, rfl, rfl, rfl, rfl, rfl, rfl, rfl, rfl, rfl, rfl⟩
@[simp] theorem setShadow_frame {s : State} {a : Nat} {v : Word} :
    (setShadow s a v).pending = s.pending ∧ (setShadow s a v).freeCtr = s.freeCtr ∧ (setShadow s a v).hostMem =
    s.hostMem ∧ (setShadow s a v).silicon = s.silicon ∧ (setShadow s a v).pins = s.pins ∧ (setShadow s a v).boot =
    s.boot ∧ (setShadow s a v).clock = s.clock ∧ (setShadow s a v).reqs = s.reqs ∧ (setShadow s a v).evt = s.evt ∧
    (setShadow s a v).intc = s.intc ∧ (setShadow s a v).mbx = s.mbx ∧ (setShadow s a v).cores = s.cores ∧ (setShadow
    s a v).img = s.img ∧ (setShadow s a v).psc = s.psc ∧ (setShadow s a v).vers = s.vers ∧ (setShadow s a v).gov =
    s.gov ∧ (setShadow s a v).sump = s.sump ∧ (setShadow s a v).ves = s.ves ∧ (setShadow s a v).staging = s.staging
    ∧ (setShadow s a v).bmp = s.bmp ∧ (setShadow s a v).rope = s.rope ∧ (setShadow s a v).rlp = s.rlp ∧ (setShadow s
    a v).ras = s.ras ∧ (setShadow s a v).life = s.life ∧ (setShadow s a v).pwr = s.pwr ∧ (setShadow s a v).wrap =
    s.wrap := ⟨rfl, rfl, rfl, rfl, rfl, rfl, rfl, rfl, rfl, rfl, rfl, rfl, rfl, rfl, rfl, rfl, rfl, rfl, rfl, rfl, rfl, rfl, rfl, rfl, rfl, rfl⟩
@[simp] theorem setCore_frame {s : State} {n : Nat} {c : Core} :
    (setCore s n c).pending = s.pending ∧ (setCore s n c).freeCtr = s.freeCtr ∧ (setCore s n c).hostMem = s.hostMem
    ∧ (setCore s n c).silicon = s.silicon ∧ (setCore s n c).pins = s.pins ∧ (setCore s n c).boot = s.boot ∧ (setCore
    s n c).clock = s.clock ∧ (setCore s n c).regs = s.regs ∧ (setCore s n c).reqs = s.reqs ∧ (setCore s n c).evt =
    s.evt ∧ (setCore s n c).intc = s.intc ∧ (setCore s n c).mbx = s.mbx ∧ (setCore s n c).img = s.img ∧ (setCore s n
    c).psc = s.psc ∧ (setCore s n c).vers = s.vers ∧ (setCore s n c).gov = s.gov ∧ (setCore s n c).sump = s.sump ∧
    (setCore s n c).ves = s.ves ∧ (setCore s n c).staging = s.staging ∧ (setCore s n c).bmp = s.bmp ∧ (setCore s n
    c).rope = s.rope ∧ (setCore s n c).rlp = s.rlp ∧ (setCore s n c).ras = s.ras ∧ (setCore s n c).life = s.life ∧
    (setCore s n c).pwr = s.pwr ∧ (setCore s n c).wrap = s.wrap := ⟨rfl, rfl, rfl, rfl, rfl, rfl, rfl, rfl, rfl, rfl, rfl, rfl, rfl, rfl, rfl, rfl, rfl, rfl, rfl, rfl, rfl, rfl, rfl, rfl, rfl, rfl⟩
@[simp] theorem setReq_frame {s : State} {r : Req} {q : ReqState} :
    (setReq s r q).pending = s.pending ∧ (setReq s r q).freeCtr = s.freeCtr ∧ (setReq s r q).hostMem = s.hostMem ∧
    (setReq s r q).silicon = s.silicon ∧ (setReq s r q).pins = s.pins ∧ (setReq s r q).boot = s.boot ∧ (setReq s r
    q).clock = s.clock ∧ (setReq s r q).regs = s.regs ∧ (setReq s r q).evt = s.evt ∧ (setReq s r q).intc = s.intc ∧
    (setReq s r q).mbx = s.mbx ∧ (setReq s r q).cores = s.cores ∧ (setReq s r q).img = s.img ∧ (setReq s r q).psc =
    s.psc ∧ (setReq s r q).vers = s.vers ∧ (setReq s r q).gov = s.gov ∧ (setReq s r q).sump = s.sump ∧ (setReq s r
    q).ves = s.ves ∧ (setReq s r q).staging = s.staging ∧ (setReq s r q).bmp = s.bmp ∧ (setReq s r q).rope = s.rope
    ∧ (setReq s r q).rlp = s.rlp ∧ (setReq s r q).ras = s.ras ∧ (setReq s r q).life = s.life ∧ (setReq s r q).pwr =
    s.pwr ∧ (setReq s r q).wrap = s.wrap := ⟨rfl, rfl, rfl, rfl, rfl, rfl, rfl, rfl, rfl, rfl, rfl, rfl, rfl, rfl, rfl, rfl, rfl, rfl, rfl, rfl, rfl, rfl, rfl, rfl, rfl, rfl⟩
@[simp] theorem setMbx_frame {s : State} {n : Nat} {m : Mailbox} :
    (setMbx s n m).pending = s.pending ∧ (setMbx s n m).freeCtr = s.freeCtr ∧ (setMbx s n m).hostMem = s.hostMem ∧
    (setMbx s n m).silicon = s.silicon ∧ (setMbx s n m).pins = s.pins ∧ (setMbx s n m).boot = s.boot ∧ (setMbx s n
    m).clock = s.clock ∧ (setMbx s n m).regs = s.regs ∧ (setMbx s n m).reqs = s.reqs ∧ (setMbx s n m).evt = s.evt ∧
    (setMbx s n m).intc = s.intc ∧ (setMbx s n m).cores = s.cores ∧ (setMbx s n m).img = s.img ∧ (setMbx s n m).psc
    = s.psc ∧ (setMbx s n m).vers = s.vers ∧ (setMbx s n m).gov = s.gov ∧ (setMbx s n m).sump = s.sump ∧ (setMbx s n
    m).ves = s.ves ∧ (setMbx s n m).staging = s.staging ∧ (setMbx s n m).bmp = s.bmp ∧ (setMbx s n m).rope = s.rope
    ∧ (setMbx s n m).rlp = s.rlp ∧ (setMbx s n m).ras = s.ras ∧ (setMbx s n m).life = s.life ∧ (setMbx s n m).pwr =
    s.pwr ∧ (setMbx s n m).wrap = s.wrap := ⟨rfl, rfl, rfl, rfl, rfl, rfl, rfl, rfl, rfl, rfl, rfl, rfl, rfl, rfl, rfl, rfl, rfl, rfl, rfl, rfl, rfl, rfl, rfl, rfl, rfl, rfl⟩
@[simp] theorem setPassage_frame {s : State} {p : Nat} {x : Passage} :
    (setPassage s p x).pending = s.pending ∧ (setPassage s p x).freeCtr = s.freeCtr ∧ (setPassage s p x).hostMem =
    s.hostMem ∧ (setPassage s p x).silicon = s.silicon ∧ (setPassage s p x).pins = s.pins ∧ (setPassage s p x).boot
    = s.boot ∧ (setPassage s p x).clock = s.clock ∧ (setPassage s p x).regs = s.regs ∧ (setPassage s p x).reqs =
    s.reqs ∧ (setPassage s p x).evt = s.evt ∧ (setPassage s p x).intc = s.intc ∧ (setPassage s p x).mbx = s.mbx ∧
    (setPassage s p x).cores = s.cores ∧ (setPassage s p x).img = s.img ∧ (setPassage s p x).vers = s.vers ∧
    (setPassage s p x).gov = s.gov ∧ (setPassage s p x).sump = s.sump ∧ (setPassage s p x).ves = s.ves ∧ (setPassage
    s p x).staging = s.staging ∧ (setPassage s p x).bmp = s.bmp ∧ (setPassage s p x).rope = s.rope ∧ (setPassage s p
    x).rlp = s.rlp ∧ (setPassage s p x).ras = s.ras ∧ (setPassage s p x).life = s.life ∧ (setPassage s p x).pwr =
    s.pwr ∧ (setPassage s p x).wrap = s.wrap := ⟨rfl, rfl, rfl, rfl, rfl, rfl, rfl, rfl, rfl, rfl, rfl, rfl, rfl, rfl, rfl, rfl, rfl, rfl, rfl, rfl, rfl, rfl, rfl, rfl, rfl, rfl⟩
@[simp] theorem setVer_frame {s : State} {t : Nat} {v : TensorVer} :
    (setVer s t v).pending = s.pending ∧ (setVer s t v).freeCtr = s.freeCtr ∧ (setVer s t v).hostMem = s.hostMem ∧
    (setVer s t v).silicon = s.silicon ∧ (setVer s t v).pins = s.pins ∧ (setVer s t v).boot = s.boot ∧ (setVer s t
    v).clock = s.clock ∧ (setVer s t v).regs = s.regs ∧ (setVer s t v).reqs = s.reqs ∧ (setVer s t v).evt = s.evt ∧
    (setVer s t v).intc = s.intc ∧ (setVer s t v).mbx = s.mbx ∧ (setVer s t v).cores = s.cores ∧ (setVer s t v).img
    = s.img ∧ (setVer s t v).psc = s.psc ∧ (setVer s t v).gov = s.gov ∧ (setVer s t v).sump = s.sump ∧ (setVer s t
    v).ves = s.ves ∧ (setVer s t v).staging = s.staging ∧ (setVer s t v).bmp = s.bmp ∧ (setVer s t v).rope = s.rope
    ∧ (setVer s t v).rlp = s.rlp ∧ (setVer s t v).ras = s.ras ∧ (setVer s t v).life = s.life ∧ (setVer s t v).pwr =
    s.pwr ∧ (setVer s t v).wrap = s.wrap := ⟨rfl, rfl, rfl, rfl, rfl, rfl, rfl, rfl, rfl, rfl, rfl, rfl, rfl, rfl, rfl, rfl, rfl, rfl, rfl, rfl, rfl, rfl, rfl, rfl, rfl, rfl⟩
@[simp] theorem setLayer_frame {s : State} {l : Nat} {x : Layer} :
    (setLayer s l x).pending = s.pending ∧ (setLayer s l x).freeCtr = s.freeCtr ∧ (setLayer s l x).hostMem =
    s.hostMem ∧ (setLayer s l x).silicon = s.silicon ∧ (setLayer s l x).pins = s.pins ∧ (setLayer s l x).boot =
    s.boot ∧ (setLayer s l x).clock = s.clock ∧ (setLayer s l x).regs = s.regs ∧ (setLayer s l x).reqs = s.reqs ∧
    (setLayer s l x).evt = s.evt ∧ (setLayer s l x).intc = s.intc ∧ (setLayer s l x).mbx = s.mbx ∧ (setLayer s l
    x).cores = s.cores ∧ (setLayer s l x).img = s.img ∧ (setLayer s l x).psc = s.psc ∧ (setLayer s l x).vers =
    s.vers ∧ (setLayer s l x).sump = s.sump ∧ (setLayer s l x).ves = s.ves ∧ (setLayer s l x).staging = s.staging ∧
    (setLayer s l x).bmp = s.bmp ∧ (setLayer s l x).rope = s.rope ∧ (setLayer s l x).rlp = s.rlp ∧ (setLayer s l
    x).ras = s.ras ∧ (setLayer s l x).life = s.life ∧ (setLayer s l x).pwr = s.pwr ∧ (setLayer s l x).wrap = s.wrap := ⟨rfl, rfl, rfl, rfl, rfl, rfl, rfl, rfl, rfl, rfl, rfl, rfl, rfl, rfl, rfl, rfl, rfl, rfl, rfl, rfl, rfl, rfl, rfl, rfl, rfl, rfl⟩
@[simp] theorem setArray_frame {s : State} {a : Nat} {x : ArrayState} :
    (setArray s a x).pending = s.pending ∧ (setArray s a x).freeCtr = s.freeCtr ∧ (setArray s a x).hostMem =
    s.hostMem ∧ (setArray s a x).silicon = s.silicon ∧ (setArray s a x).pins = s.pins ∧ (setArray s a x).boot =
    s.boot ∧ (setArray s a x).clock = s.clock ∧ (setArray s a x).regs = s.regs ∧ (setArray s a x).reqs = s.reqs ∧
    (setArray s a x).evt = s.evt ∧ (setArray s a x).intc = s.intc ∧ (setArray s a x).mbx = s.mbx ∧ (setArray s a
    x).cores = s.cores ∧ (setArray s a x).img = s.img ∧ (setArray s a x).psc = s.psc ∧ (setArray s a x).vers =
    s.vers ∧ (setArray s a x).gov = s.gov ∧ (setArray s a x).ves = s.ves ∧ (setArray s a x).staging = s.staging ∧
    (setArray s a x).bmp = s.bmp ∧ (setArray s a x).rope = s.rope ∧ (setArray s a x).rlp = s.rlp ∧ (setArray s a
    x).ras = s.ras ∧ (setArray s a x).life = s.life ∧ (setArray s a x).pwr = s.pwr ∧ (setArray s a x).wrap = s.wrap := ⟨rfl, rfl, rfl, rfl, rfl, rfl, rfl, rfl, rfl, rfl, rfl, rfl, rfl, rfl, rfl, rfl, rfl, rfl, rfl, rfl, rfl, rfl, rfl, rfl, rfl, rfl⟩
@[simp] theorem setVe_frame {s : State} {n : Nat} {v : Ve} :
    (setVe s n v).pending = s.pending ∧ (setVe s n v).freeCtr = s.freeCtr ∧ (setVe s n v).hostMem = s.hostMem ∧
    (setVe s n v).silicon = s.silicon ∧ (setVe s n v).pins = s.pins ∧ (setVe s n v).boot = s.boot ∧ (setVe s n
    v).clock = s.clock ∧ (setVe s n v).regs = s.regs ∧ (setVe s n v).reqs = s.reqs ∧ (setVe s n v).evt = s.evt ∧
    (setVe s n v).intc = s.intc ∧ (setVe s n v).mbx = s.mbx ∧ (setVe s n v).cores = s.cores ∧ (setVe s n v).img =
    s.img ∧ (setVe s n v).psc = s.psc ∧ (setVe s n v).vers = s.vers ∧ (setVe s n v).gov = s.gov ∧ (setVe s n v).sump
    = s.sump ∧ (setVe s n v).staging = s.staging ∧ (setVe s n v).bmp = s.bmp ∧ (setVe s n v).rope = s.rope ∧ (setVe
    s n v).rlp = s.rlp ∧ (setVe s n v).ras = s.ras ∧ (setVe s n v).life = s.life ∧ (setVe s n v).pwr = s.pwr ∧
    (setVe s n v).wrap = s.wrap := ⟨rfl, rfl, rfl, rfl, rfl, rfl, rfl, rfl, rfl, rfl, rfl, rfl, rfl, rfl, rfl, rfl, rfl, rfl, rfl, rfl, rfl, rfl, rfl, rfl, rfl, rfl⟩
@[simp] theorem setChan_frame {s : State} {c : Nat} {x : Chan} :
    (setChan s c x).pending = s.pending ∧ (setChan s c x).freeCtr = s.freeCtr ∧ (setChan s c x).hostMem = s.hostMem
    ∧ (setChan s c x).silicon = s.silicon ∧ (setChan s c x).pins = s.pins ∧ (setChan s c x).boot = s.boot ∧ (setChan
    s c x).clock = s.clock ∧ (setChan s c x).regs = s.regs ∧ (setChan s c x).reqs = s.reqs ∧ (setChan s c x).evt =
    s.evt ∧ (setChan s c x).intc = s.intc ∧ (setChan s c x).mbx = s.mbx ∧ (setChan s c x).cores = s.cores ∧ (setChan
    s c x).img = s.img ∧ (setChan s c x).psc = s.psc ∧ (setChan s c x).vers = s.vers ∧ (setChan s c x).gov = s.gov ∧
    (setChan s c x).sump = s.sump ∧ (setChan s c x).ves = s.ves ∧ (setChan s c x).staging = s.staging ∧ (setChan s c
    x).rope = s.rope ∧ (setChan s c x).rlp = s.rlp ∧ (setChan s c x).ras = s.ras ∧ (setChan s c x).life = s.life ∧
    (setChan s c x).pwr = s.pwr ∧ (setChan s c x).wrap = s.wrap := ⟨rfl, rfl, rfl, rfl, rfl, rfl, rfl, rfl, rfl, rfl, rfl, rfl, rfl, rfl, rfl, rfl, rfl, rfl, rfl, rfl, rfl, rfl, rfl, rfl, rfl, rfl⟩
@[simp] theorem setRlp_frame {s : State} {c : Nat} {x : RlpChan} :
    (setRlp s c x).pending = s.pending ∧ (setRlp s c x).freeCtr = s.freeCtr ∧ (setRlp s c x).hostMem = s.hostMem ∧
    (setRlp s c x).silicon = s.silicon ∧ (setRlp s c x).pins = s.pins ∧ (setRlp s c x).boot = s.boot ∧ (setRlp s c
    x).clock = s.clock ∧ (setRlp s c x).regs = s.regs ∧ (setRlp s c x).reqs = s.reqs ∧ (setRlp s c x).evt = s.evt ∧
    (setRlp s c x).intc = s.intc ∧ (setRlp s c x).mbx = s.mbx ∧ (setRlp s c x).cores = s.cores ∧ (setRlp s c x).img
    = s.img ∧ (setRlp s c x).psc = s.psc ∧ (setRlp s c x).vers = s.vers ∧ (setRlp s c x).gov = s.gov ∧ (setRlp s c
    x).sump = s.sump ∧ (setRlp s c x).ves = s.ves ∧ (setRlp s c x).staging = s.staging ∧ (setRlp s c x).bmp = s.bmp
    ∧ (setRlp s c x).rope = s.rope ∧ (setRlp s c x).ras = s.ras ∧ (setRlp s c x).life = s.life ∧ (setRlp s c x).pwr
    = s.pwr ∧ (setRlp s c x).wrap = s.wrap := ⟨rfl, rfl, rfl, rfl, rfl, rfl, rfl, rfl, rfl, rfl, rfl, rfl, rfl, rfl, rfl, rfl, rfl, rfl, rfl, rfl, rfl, rfl, rfl, rfl, rfl, rfl⟩
@[simp] theorem setGroup_frame {s : State} {k : Nat} {g : Group} :
    (setGroup s k g).pending = s.pending ∧ (setGroup s k g).freeCtr = s.freeCtr ∧ (setGroup s k g).hostMem =
    s.hostMem ∧ (setGroup s k g).silicon = s.silicon ∧ (setGroup s k g).pins = s.pins ∧ (setGroup s k g).boot =
    s.boot ∧ (setGroup s k g).clock = s.clock ∧ (setGroup s k g).regs = s.regs ∧ (setGroup s k g).reqs = s.reqs ∧
    (setGroup s k g).evt = s.evt ∧ (setGroup s k g).intc = s.intc ∧ (setGroup s k g).mbx = s.mbx ∧ (setGroup s k
    g).cores = s.cores ∧ (setGroup s k g).img = s.img ∧ (setGroup s k g).psc = s.psc ∧ (setGroup s k g).vers =
    s.vers ∧ (setGroup s k g).gov = s.gov ∧ (setGroup s k g).ves = s.ves ∧ (setGroup s k g).staging = s.staging ∧
    (setGroup s k g).bmp = s.bmp ∧ (setGroup s k g).rope = s.rope ∧ (setGroup s k g).rlp = s.rlp ∧ (setGroup s k
    g).ras = s.ras ∧ (setGroup s k g).life = s.life ∧ (setGroup s k g).pwr = s.pwr ∧ (setGroup s k g).wrap = s.wrap := ⟨rfl, rfl, rfl, rfl, rfl, rfl, rfl, rfl, rfl, rfl, rfl, rfl, rfl, rfl, rfl, rfl, rfl, rfl, rfl, rfl, rfl, rfl, rfl, rfl, rfl, rfl⟩
@[simp] theorem setTotal_frame {s : State} {k : Nat} {v : Int} :
    (setTotal s k v).pending = s.pending ∧ (setTotal s k v).freeCtr = s.freeCtr ∧ (setTotal s k v).hostMem =
    s.hostMem ∧ (setTotal s k v).silicon = s.silicon ∧ (setTotal s k v).pins = s.pins ∧ (setTotal s k v).boot =
    s.boot ∧ (setTotal s k v).clock = s.clock ∧ (setTotal s k v).regs = s.regs ∧ (setTotal s k v).reqs = s.reqs ∧
    (setTotal s k v).evt = s.evt ∧ (setTotal s k v).intc = s.intc ∧ (setTotal s k v).mbx = s.mbx ∧ (setTotal s k
    v).cores = s.cores ∧ (setTotal s k v).img = s.img ∧ (setTotal s k v).psc = s.psc ∧ (setTotal s k v).vers =
    s.vers ∧ (setTotal s k v).gov = s.gov ∧ (setTotal s k v).ves = s.ves ∧ (setTotal s k v).staging = s.staging ∧
    (setTotal s k v).bmp = s.bmp ∧ (setTotal s k v).rope = s.rope ∧ (setTotal s k v).rlp = s.rlp ∧ (setTotal s k
    v).ras = s.ras ∧ (setTotal s k v).life = s.life ∧ (setTotal s k v).pwr = s.pwr ∧ (setTotal s k v).wrap = s.wrap := ⟨rfl, rfl, rfl, rfl, rfl, rfl, rfl, rfl, rfl, rfl, rfl, rfl, rfl, rfl, rfl, rfl, rfl, rfl, rfl, rfl, rfl, rfl, rfl, rfl, rfl, rfl⟩
@[simp] theorem countLife_frame {s : State} {i n : Nat} :
    (countLife s i n).pending = s.pending ∧ (countLife s i n).freeCtr = s.freeCtr ∧ (countLife s i n).hostMem =
    s.hostMem ∧ (countLife s i n).silicon = s.silicon ∧ (countLife s i n).pins = s.pins ∧ (countLife s i n).boot =
    s.boot ∧ (countLife s i n).clock = s.clock ∧ (countLife s i n).regs = s.regs ∧ (countLife s i n).reqs = s.reqs ∧
    (countLife s i n).evt = s.evt ∧ (countLife s i n).intc = s.intc ∧ (countLife s i n).mbx = s.mbx ∧ (countLife s i
    n).cores = s.cores ∧ (countLife s i n).img = s.img ∧ (countLife s i n).psc = s.psc ∧ (countLife s i n).vers =
    s.vers ∧ (countLife s i n).gov = s.gov ∧ (countLife s i n).sump = s.sump ∧ (countLife s i n).ves = s.ves ∧
    (countLife s i n).staging = s.staging ∧ (countLife s i n).bmp = s.bmp ∧ (countLife s i n).rope = s.rope ∧
    (countLife s i n).rlp = s.rlp ∧ (countLife s i n).ras = s.ras ∧ (countLife s i n).pwr = s.pwr ∧ (countLife s i
    n).wrap = s.wrap := ⟨rfl, rfl, rfl, rfl, rfl, rfl, rfl, rfl, rfl, rfl, rfl, rfl, rfl, rfl, rfl, rfl, rfl, rfl, rfl, rfl, rfl, rfl, rfl, rfl, rfl, rfl⟩
@[simp] theorem setUnits_frame {s : State} {q : Nat} {u : Units} :
    (setUnits s q u).pending = s.pending ∧ (setUnits s q u).freeCtr = s.freeCtr ∧ (setUnits s q u).hostMem =
    s.hostMem ∧ (setUnits s q u).silicon = s.silicon ∧ (setUnits s q u).pins = s.pins ∧ (setUnits s q u).boot =
    s.boot ∧ (setUnits s q u).clock = s.clock ∧ (setUnits s q u).regs = s.regs ∧ (setUnits s q u).reqs = s.reqs ∧
    (setUnits s q u).evt = s.evt ∧ (setUnits s q u).intc = s.intc ∧ (setUnits s q u).mbx = s.mbx ∧ (setUnits s q
    u).cores = s.cores ∧ (setUnits s q u).img = s.img ∧ (setUnits s q u).psc = s.psc ∧ (setUnits s q u).vers =
    s.vers ∧ (setUnits s q u).gov = s.gov ∧ (setUnits s q u).sump = s.sump ∧ (setUnits s q u).ves = s.ves ∧
    (setUnits s q u).staging = s.staging ∧ (setUnits s q u).bmp = s.bmp ∧ (setUnits s q u).rope = s.rope ∧ (setUnits
    s q u).rlp = s.rlp ∧ (setUnits s q u).life = s.life ∧ (setUnits s q u).pwr = s.pwr ∧ (setUnits s q u).wrap =
    s.wrap := ⟨rfl, rfl, rfl, rfl, rfl, rfl, rfl, rfl, rfl, rfl, rfl, rfl, rfl, rfl, rfl, rfl, rfl, rfl, rfl, rfl, rfl, rfl, rfl, rfl, rfl, rfl⟩
@[simp] theorem unitOut_frame {s : State} {q n : Nat} :
    (unitOut s q n).pending = s.pending ∧ (unitOut s q n).freeCtr = s.freeCtr ∧ (unitOut s q n).hostMem = s.hostMem
    ∧ (unitOut s q n).silicon = s.silicon ∧ (unitOut s q n).pins = s.pins ∧ (unitOut s q n).boot = s.boot ∧ (unitOut
    s q n).clock = s.clock ∧ (unitOut s q n).regs = s.regs ∧ (unitOut s q n).reqs = s.reqs ∧ (unitOut s q n).evt =
    s.evt ∧ (unitOut s q n).intc = s.intc ∧ (unitOut s q n).mbx = s.mbx ∧ (unitOut s q n).cores = s.cores ∧ (unitOut
    s q n).img = s.img ∧ (unitOut s q n).psc = s.psc ∧ (unitOut s q n).vers = s.vers ∧ (unitOut s q n).gov = s.gov ∧
    (unitOut s q n).sump = s.sump ∧ (unitOut s q n).ves = s.ves ∧ (unitOut s q n).staging = s.staging ∧ (unitOut s q
    n).bmp = s.bmp ∧ (unitOut s q n).rope = s.rope ∧ (unitOut s q n).rlp = s.rlp ∧ (unitOut s q n).life = s.life ∧
    (unitOut s q n).pwr = s.pwr ∧ (unitOut s q n).wrap = s.wrap := ⟨rfl, rfl, rfl, rfl, rfl, rfl, rfl, rfl, rfl, rfl, rfl, rfl, rfl, rfl, rfl, rfl, rfl, rfl, rfl, rfl, rfl, rfl, rfl, rfl, rfl, rfl⟩
@[simp] theorem unitBack_frame {s : State} {q n : Nat} :
    (unitBack s q n).pending = s.pending ∧ (unitBack s q n).freeCtr = s.freeCtr ∧ (unitBack s q n).hostMem =
    s.hostMem ∧ (unitBack s q n).silicon = s.silicon ∧ (unitBack s q n).pins = s.pins ∧ (unitBack s q n).boot =
    s.boot ∧ (unitBack s q n).clock = s.clock ∧ (unitBack s q n).regs = s.regs ∧ (unitBack s q n).reqs = s.reqs ∧
    (unitBack s q n).evt = s.evt ∧ (unitBack s q n).intc = s.intc ∧ (unitBack s q n).mbx = s.mbx ∧ (unitBack s q
    n).cores = s.cores ∧ (unitBack s q n).img = s.img ∧ (unitBack s q n).psc = s.psc ∧ (unitBack s q n).vers =
    s.vers ∧ (unitBack s q n).gov = s.gov ∧ (unitBack s q n).sump = s.sump ∧ (unitBack s q n).ves = s.ves ∧
    (unitBack s q n).staging = s.staging ∧ (unitBack s q n).bmp = s.bmp ∧ (unitBack s q n).rope = s.rope ∧ (unitBack
    s q n).rlp = s.rlp ∧ (unitBack s q n).life = s.life ∧ (unitBack s q n).pwr = s.pwr ∧ (unitBack s q n).wrap =
    s.wrap := ⟨rfl, rfl, rfl, rfl, rfl, rfl, rfl, rfl, rfl, rfl, rfl, rfl, rfl, rfl, rfl, rfl, rfl, rfl, rfl, rfl, rfl, rfl, rfl, rfl, rfl, rfl⟩
@[simp] theorem unitReclaim_frame {s : State} {q n : Nat} :
    (unitReclaim s q n).pending = s.pending ∧ (unitReclaim s q n).freeCtr = s.freeCtr ∧ (unitReclaim s q n).hostMem
    = s.hostMem ∧ (unitReclaim s q n).silicon = s.silicon ∧ (unitReclaim s q n).pins = s.pins ∧ (unitReclaim s q
    n).boot = s.boot ∧ (unitReclaim s q n).clock = s.clock ∧ (unitReclaim s q n).regs = s.regs ∧ (unitReclaim s q
    n).reqs = s.reqs ∧ (unitReclaim s q n).evt = s.evt ∧ (unitReclaim s q n).intc = s.intc ∧ (unitReclaim s q n).mbx
    = s.mbx ∧ (unitReclaim s q n).cores = s.cores ∧ (unitReclaim s q n).img = s.img ∧ (unitReclaim s q n).psc =
    s.psc ∧ (unitReclaim s q n).vers = s.vers ∧ (unitReclaim s q n).gov = s.gov ∧ (unitReclaim s q n).sump = s.sump
    ∧ (unitReclaim s q n).ves = s.ves ∧ (unitReclaim s q n).staging = s.staging ∧ (unitReclaim s q n).bmp = s.bmp ∧
    (unitReclaim s q n).rope = s.rope ∧ (unitReclaim s q n).rlp = s.rlp ∧ (unitReclaim s q n).life = s.life ∧
    (unitReclaim s q n).pwr = s.pwr ∧ (unitReclaim s q n).wrap = s.wrap := ⟨rfl, rfl, rfl, rfl, rfl, rfl, rfl, rfl, rfl, rfl, rfl, rfl, rfl, rfl, rfl, rfl, rfl, rfl, rfl, rfl, rfl, rfl, rfl, rfl, rfl, rfl⟩
@[simp] theorem countStall_frame {s : State} {c n : Nat} :
    (countStall s c n).pending = s.pending ∧ (countStall s c n).freeCtr = s.freeCtr ∧ (countStall s c n).hostMem =
    s.hostMem ∧ (countStall s c n).silicon = s.silicon ∧ (countStall s c n).pins = s.pins ∧ (countStall s c n).boot
    = s.boot ∧ (countStall s c n).clock = s.clock ∧ (countStall s c n).regs = s.regs ∧ (countStall s c n).reqs =
    s.reqs ∧ (countStall s c n).evt = s.evt ∧ (countStall s c n).intc = s.intc ∧ (countStall s c n).mbx = s.mbx ∧
    (countStall s c n).cores = s.cores ∧ (countStall s c n).img = s.img ∧ (countStall s c n).vers = s.vers ∧
    (countStall s c n).gov = s.gov ∧ (countStall s c n).sump = s.sump ∧ (countStall s c n).ves = s.ves ∧ (countStall
    s c n).staging = s.staging ∧ (countStall s c n).bmp = s.bmp ∧ (countStall s c n).rope = s.rope ∧ (countStall s c
    n).rlp = s.rlp ∧ (countStall s c n).ras = s.ras ∧ (countStall s c n).life = s.life ∧ (countStall s c n).pwr =
    s.pwr ∧ (countStall s c n).wrap = s.wrap := ⟨rfl, rfl, rfl, rfl, rfl, rfl, rfl, rfl, rfl, rfl, rfl, rfl, rfl, rfl, rfl, rfl, rfl, rfl, rfl, rfl, rfl, rfl, rfl, rfl, rfl, rfl⟩
@[simp] theorem addOp_frame {s : State} {o : Op} :
    (addOp s o).pending = s.pending ∧ (addOp s o).freeCtr = s.freeCtr ∧ (addOp s o).hostMem = s.hostMem ∧ (addOp s
    o).silicon = s.silicon ∧ (addOp s o).pins = s.pins ∧ (addOp s o).boot = s.boot ∧ (addOp s o).clock = s.clock ∧
    (addOp s o).regs = s.regs ∧ (addOp s o).reqs = s.reqs ∧ (addOp s o).evt = s.evt ∧ (addOp s o).intc = s.intc ∧
    (addOp s o).mbx = s.mbx ∧ (addOp s o).cores = s.cores ∧ (addOp s o).img = s.img ∧ (addOp s o).vers = s.vers ∧
    (addOp s o).gov = s.gov ∧ (addOp s o).sump = s.sump ∧ (addOp s o).ves = s.ves ∧ (addOp s o).staging = s.staging
    ∧ (addOp s o).bmp = s.bmp ∧ (addOp s o).rope = s.rope ∧ (addOp s o).rlp = s.rlp ∧ (addOp s o).ras = s.ras ∧
    (addOp s o).life = s.life ∧ (addOp s o).pwr = s.pwr ∧ (addOp s o).wrap = s.wrap := ⟨rfl, rfl, rfl, rfl, rfl, rfl, rfl, rfl, rfl, rfl, rfl, rfl, rfl, rfl, rfl, rfl, rfl, rfl, rfl, rfl, rfl, rfl, rfl, rfl, rfl, rfl⟩
@[simp] theorem finishOp_frame {s : State} {i : Nat} :
    (finishOp s i).pending = s.pending ∧ (finishOp s i).freeCtr = s.freeCtr ∧ (finishOp s i).hostMem = s.hostMem ∧
    (finishOp s i).silicon = s.silicon ∧ (finishOp s i).pins = s.pins ∧ (finishOp s i).boot = s.boot ∧ (finishOp s
    i).clock = s.clock ∧ (finishOp s i).regs = s.regs ∧ (finishOp s i).reqs = s.reqs ∧ (finishOp s i).evt = s.evt ∧
    (finishOp s i).intc = s.intc ∧ (finishOp s i).mbx = s.mbx ∧ (finishOp s i).cores = s.cores ∧ (finishOp s i).img
    = s.img ∧ (finishOp s i).vers = s.vers ∧ (finishOp s i).gov = s.gov ∧ (finishOp s i).sump = s.sump ∧ (finishOp s
    i).ves = s.ves ∧ (finishOp s i).staging = s.staging ∧ (finishOp s i).bmp = s.bmp ∧ (finishOp s i).rope = s.rope
    ∧ (finishOp s i).rlp = s.rlp ∧ (finishOp s i).ras = s.ras ∧ (finishOp s i).life = s.life ∧ (finishOp s i).pwr =
    s.pwr ∧ (finishOp s i).wrap = s.wrap := ⟨rfl, rfl, rfl, rfl, rfl, rfl, rfl, rfl, rfl, rfl, rfl, rfl, rfl, rfl, rfl, rfl, rfl, rfl, rfl, rfl, rfl, rfl, rfl, rfl, rfl, rfl⟩
@[simp] theorem setOpKind_frame {s : State} {i : Nat} {k : OpKind} :
    (setOpKind s i k).pending = s.pending ∧ (setOpKind s i k).freeCtr = s.freeCtr ∧ (setOpKind s i k).hostMem =
    s.hostMem ∧ (setOpKind s i k).silicon = s.silicon ∧ (setOpKind s i k).pins = s.pins ∧ (setOpKind s i k).boot =
    s.boot ∧ (setOpKind s i k).clock = s.clock ∧ (setOpKind s i k).regs = s.regs ∧ (setOpKind s i k).reqs = s.reqs ∧
    (setOpKind s i k).evt = s.evt ∧ (setOpKind s i k).intc = s.intc ∧ (setOpKind s i k).mbx = s.mbx ∧ (setOpKind s i
    k).cores = s.cores ∧ (setOpKind s i k).img = s.img ∧ (setOpKind s i k).vers = s.vers ∧ (setOpKind s i k).gov =
    s.gov ∧ (setOpKind s i k).sump = s.sump ∧ (setOpKind s i k).ves = s.ves ∧ (setOpKind s i k).staging = s.staging
    ∧ (setOpKind s i k).bmp = s.bmp ∧ (setOpKind s i k).rope = s.rope ∧ (setOpKind s i k).rlp = s.rlp ∧ (setOpKind s
    i k).ras = s.ras ∧ (setOpKind s i k).life = s.life ∧ (setOpKind s i k).pwr = s.pwr ∧ (setOpKind s i k).wrap =
    s.wrap := ⟨rfl, rfl, rfl, rfl, rfl, rfl, rfl, rfl, rfl, rfl, rfl, rfl, rfl, rfl, rfl, rfl, rfl, rfl, rfl, rfl, rfl, rfl, rfl, rfl, rfl, rfl⟩

@[simp] theorem intPulse_frame {s : State} {n : Nat} :
    (intPulse s n).pending = s.pending ∧ (intPulse s n).freeCtr = s.freeCtr ∧ (intPulse s n).hostMem = s.hostMem ∧
    (intPulse s n).silicon = s.silicon ∧ (intPulse s n).pins = s.pins ∧ (intPulse s n).boot = s.boot ∧ (intPulse s
    n).clock = s.clock ∧ (intPulse s n).regs = s.regs ∧ (intPulse s n).reqs = s.reqs ∧ (intPulse s n).evt = s.evt ∧
    (intPulse s n).mbx = s.mbx ∧ (intPulse s n).cores = s.cores ∧ (intPulse s n).img = s.img ∧ (intPulse s n).psc =
    s.psc ∧ (intPulse s n).vers = s.vers ∧ (intPulse s n).gov = s.gov ∧ (intPulse s n).sump = s.sump ∧ (intPulse s
    n).ves = s.ves ∧ (intPulse s n).staging = s.staging ∧ (intPulse s n).bmp = s.bmp ∧ (intPulse s n).rope = s.rope
    ∧ (intPulse s n).rlp = s.rlp ∧ (intPulse s n).ras = s.ras ∧ (intPulse s n).life = s.life ∧ (intPulse s n).pwr =
    s.pwr ∧ (intPulse s n).wrap = s.wrap := by
  unfold intPulse
  dsimp only
  split <;> simp
@[simp] theorem loseEvents_frame {s : State} {n : Nat} :
    (loseEvents s n).pending = s.pending ∧ (loseEvents s n).freeCtr = s.freeCtr ∧ (loseEvents s n).hostMem =
    s.hostMem ∧ (loseEvents s n).silicon = s.silicon ∧ (loseEvents s n).pins = s.pins ∧ (loseEvents s n).boot =
    s.boot ∧ (loseEvents s n).clock = s.clock ∧ (loseEvents s n).regs = s.regs ∧ (loseEvents s n).reqs = s.reqs ∧
    (loseEvents s n).mbx = s.mbx ∧ (loseEvents s n).cores = s.cores ∧ (loseEvents s n).img = s.img ∧ (loseEvents s
    n).psc = s.psc ∧ (loseEvents s n).vers = s.vers ∧ (loseEvents s n).gov = s.gov ∧ (loseEvents s n).sump = s.sump
    ∧ (loseEvents s n).ves = s.ves ∧ (loseEvents s n).staging = s.staging ∧ (loseEvents s n).bmp = s.bmp ∧
    (loseEvents s n).rope = s.rope ∧ (loseEvents s n).rlp = s.rlp ∧ (loseEvents s n).ras = s.ras ∧ (loseEvents s
    n).pwr = s.pwr ∧ (loseEvents s n).wrap = s.wrap := by
  simp [loseEvents]
@[simp] theorem raise_frame {s : State} {src c : Nat} {p : BitVec 24} :
    (raise s src c p).pending = s.pending ∧ (raise s src c p).freeCtr = s.freeCtr ∧ (raise s src c p).hostMem =
    s.hostMem ∧ (raise s src c p).silicon = s.silicon ∧ (raise s src c p).pins = s.pins ∧ (raise s src c p).boot =
    s.boot ∧ (raise s src c p).clock = s.clock ∧ (raise s src c p).regs = s.regs ∧ (raise s src c p).reqs = s.reqs ∧
    (raise s src c p).mbx = s.mbx ∧ (raise s src c p).cores = s.cores ∧ (raise s src c p).img = s.img ∧ (raise s src
    c p).psc = s.psc ∧ (raise s src c p).vers = s.vers ∧ (raise s src c p).gov = s.gov ∧ (raise s src c p).sump =
    s.sump ∧ (raise s src c p).ves = s.ves ∧ (raise s src c p).staging = s.staging ∧ (raise s src c p).bmp = s.bmp ∧
    (raise s src c p).rope = s.rope ∧ (raise s src c p).rlp = s.rlp ∧ (raise s src c p).pwr = s.pwr ∧ (raise s src c
    p).wrap = s.wrap := by
  unfold raise
  dsimp only
  split <;> simp
@[simp] theorem reservedWrite_frame {s : State} {q : Req} {a : Nat} :
    (reservedWrite s q a).pending = s.pending ∧ (reservedWrite s q a).freeCtr = s.freeCtr ∧ (reservedWrite s q
    a).hostMem = s.hostMem ∧ (reservedWrite s q a).silicon = s.silicon ∧ (reservedWrite s q a).pins = s.pins ∧
    (reservedWrite s q a).boot = s.boot ∧ (reservedWrite s q a).clock = s.clock ∧ (reservedWrite s q a).regs =
    s.regs ∧ (reservedWrite s q a).reqs = s.reqs ∧ (reservedWrite s q a).mbx = s.mbx ∧ (reservedWrite s q a).cores =
    s.cores ∧ (reservedWrite s q a).img = s.img ∧ (reservedWrite s q a).psc = s.psc ∧ (reservedWrite s q a).vers =
    s.vers ∧ (reservedWrite s q a).gov = s.gov ∧ (reservedWrite s q a).sump = s.sump ∧ (reservedWrite s q a).ves =
    s.ves ∧ (reservedWrite s q a).staging = s.staging ∧ (reservedWrite s q a).bmp = s.bmp ∧ (reservedWrite s q
    a).rope = s.rope ∧ (reservedWrite s q a).rlp = s.rlp ∧ (reservedWrite s q a).pwr = s.pwr ∧ (reservedWrite s q
    a).wrap = s.wrap := by
  simp [reservedWrite]
@[simp] theorem reservedRead_frame {s : State} {src a : Nat} :
    (reservedRead s src a).pending = s.pending ∧ (reservedRead s src a).freeCtr = s.freeCtr ∧ (reservedRead s src
    a).hostMem = s.hostMem ∧ (reservedRead s src a).silicon = s.silicon ∧ (reservedRead s src a).pins = s.pins ∧
    (reservedRead s src a).boot = s.boot ∧ (reservedRead s src a).clock = s.clock ∧ (reservedRead s src a).regs =
    s.regs ∧ (reservedRead s src a).reqs = s.reqs ∧ (reservedRead s src a).mbx = s.mbx ∧ (reservedRead s src
    a).cores = s.cores ∧ (reservedRead s src a).img = s.img ∧ (reservedRead s src a).psc = s.psc ∧ (reservedRead s
    src a).vers = s.vers ∧ (reservedRead s src a).gov = s.gov ∧ (reservedRead s src a).sump = s.sump ∧ (reservedRead
    s src a).ves = s.ves ∧ (reservedRead s src a).staging = s.staging ∧ (reservedRead s src a).bmp = s.bmp ∧
    (reservedRead s src a).rope = s.rope ∧ (reservedRead s src a).rlp = s.rlp ∧ (reservedRead s src a).pwr = s.pwr ∧
    (reservedRead s src a).wrap = s.wrap := by
  simp [reservedRead]
@[simp] theorem raiseOpen_frame {s : State} {src c : Nat} :
    (raiseOpen s src c).pending = s.pending ∧ (raiseOpen s src c).hostMem = s.hostMem ∧ (raiseOpen s src c).silicon
    = s.silicon ∧ (raiseOpen s src c).pins = s.pins ∧ (raiseOpen s src c).boot = s.boot ∧ (raiseOpen s src c).clock
    = s.clock ∧ (raiseOpen s src c).regs = s.regs ∧ (raiseOpen s src c).reqs = s.reqs ∧ (raiseOpen s src c).mbx =
    s.mbx ∧ (raiseOpen s src c).cores = s.cores ∧ (raiseOpen s src c).img = s.img ∧ (raiseOpen s src c).psc = s.psc
    ∧ (raiseOpen s src c).vers = s.vers ∧ (raiseOpen s src c).gov = s.gov ∧ (raiseOpen s src c).sump = s.sump ∧
    (raiseOpen s src c).ves = s.ves ∧ (raiseOpen s src c).staging = s.staging ∧ (raiseOpen s src c).bmp = s.bmp ∧
    (raiseOpen s src c).rope = s.rope ∧ (raiseOpen s src c).rlp = s.rlp ∧ (raiseOpen s src c).pwr = s.pwr ∧
    (raiseOpen s src c).wrap = s.wrap := by
  simp [raiseOpen]
@[simp] theorem raiseOnceStep_frame {s : State} {src c k : Nat} {p : BitVec 24} :
    (raiseOnceStep s src c k p).pending = s.pending ∧ (raiseOnceStep s src c k p).freeCtr = s.freeCtr ∧
    (raiseOnceStep s src c k p).hostMem = s.hostMem ∧ (raiseOnceStep s src c k p).silicon = s.silicon ∧
    (raiseOnceStep s src c k p).pins = s.pins ∧ (raiseOnceStep s src c k p).boot = s.boot ∧ (raiseOnceStep s src c k
    p).clock = s.clock ∧ (raiseOnceStep s src c k p).regs = s.regs ∧ (raiseOnceStep s src c k p).reqs = s.reqs ∧
    (raiseOnceStep s src c k p).mbx = s.mbx ∧ (raiseOnceStep s src c k p).cores = s.cores ∧ (raiseOnceStep s src c k
    p).img = s.img ∧ (raiseOnceStep s src c k p).vers = s.vers ∧ (raiseOnceStep s src c k p).gov = s.gov ∧
    (raiseOnceStep s src c k p).sump = s.sump ∧ (raiseOnceStep s src c k p).ves = s.ves ∧ (raiseOnceStep s src c k
    p).staging = s.staging ∧ (raiseOnceStep s src c k p).bmp = s.bmp ∧ (raiseOnceStep s src c k p).rope = s.rope ∧
    (raiseOnceStep s src c k p).rlp = s.rlp ∧ (raiseOnceStep s src c k p).pwr = s.pwr ∧ (raiseOnceStep s src c k
    p).wrap = s.wrap := by
  unfold raiseOnceStep
  dsimp only
  split <;> simp
@[simp] theorem raiseOncePassage_frame {s : State} {src c k : Nat} {p : BitVec 24} :
    (raiseOncePassage s src c k p).pending = s.pending ∧ (raiseOncePassage s src c k p).freeCtr = s.freeCtr ∧
    (raiseOncePassage s src c k p).hostMem = s.hostMem ∧ (raiseOncePassage s src c k p).silicon = s.silicon ∧
    (raiseOncePassage s src c k p).pins = s.pins ∧ (raiseOncePassage s src c k p).boot = s.boot ∧ (raiseOncePassage
    s src c k p).clock = s.clock ∧ (raiseOncePassage s src c k p).regs = s.regs ∧ (raiseOncePassage s src c k
    p).reqs = s.reqs ∧ (raiseOncePassage s src c k p).mbx = s.mbx ∧ (raiseOncePassage s src c k p).cores = s.cores ∧
    (raiseOncePassage s src c k p).img = s.img ∧ (raiseOncePassage s src c k p).vers = s.vers ∧ (raiseOncePassage s
    src c k p).gov = s.gov ∧ (raiseOncePassage s src c k p).sump = s.sump ∧ (raiseOncePassage s src c k p).ves =
    s.ves ∧ (raiseOncePassage s src c k p).staging = s.staging ∧ (raiseOncePassage s src c k p).bmp = s.bmp ∧
    (raiseOncePassage s src c k p).rope = s.rope ∧ (raiseOncePassage s src c k p).rlp = s.rlp ∧ (raiseOncePassage s
    src c k p).pwr = s.pwr ∧ (raiseOncePassage s src c k p).wrap = s.wrap := by
  unfold raiseOncePassage
  dsimp only
  split <;> simp
@[simp] theorem raiseOpenStep_frame {s : State} {src c k : Nat} :
    (raiseOpenStep s src c k).pending = s.pending ∧ (raiseOpenStep s src c k).hostMem = s.hostMem ∧ (raiseOpenStep s
    src c k).silicon = s.silicon ∧ (raiseOpenStep s src c k).pins = s.pins ∧ (raiseOpenStep s src c k).boot = s.boot
    ∧ (raiseOpenStep s src c k).clock = s.clock ∧ (raiseOpenStep s src c k).regs = s.regs ∧ (raiseOpenStep s src c
    k).reqs = s.reqs ∧ (raiseOpenStep s src c k).mbx = s.mbx ∧ (raiseOpenStep s src c k).cores = s.cores ∧
    (raiseOpenStep s src c k).img = s.img ∧ (raiseOpenStep s src c k).vers = s.vers ∧ (raiseOpenStep s src c k).gov
    = s.gov ∧ (raiseOpenStep s src c k).sump = s.sump ∧ (raiseOpenStep s src c k).ves = s.ves ∧ (raiseOpenStep s src
    c k).staging = s.staging ∧ (raiseOpenStep s src c k).bmp = s.bmp ∧ (raiseOpenStep s src c k).rope = s.rope ∧
    (raiseOpenStep s src c k).rlp = s.rlp ∧ (raiseOpenStep s src c k).pwr = s.pwr ∧ (raiseOpenStep s src c k).wrap =
    s.wrap := by
  simp [raiseOpenStep]
@[simp] theorem raiseOpenPassage_frame {s : State} {src c k : Nat} :
    (raiseOpenPassage s src c k).pending = s.pending ∧ (raiseOpenPassage s src c k).hostMem = s.hostMem ∧
    (raiseOpenPassage s src c k).silicon = s.silicon ∧ (raiseOpenPassage s src c k).pins = s.pins ∧
    (raiseOpenPassage s src c k).boot = s.boot ∧ (raiseOpenPassage s src c k).clock = s.clock ∧ (raiseOpenPassage s
    src c k).regs = s.regs ∧ (raiseOpenPassage s src c k).reqs = s.reqs ∧ (raiseOpenPassage s src c k).mbx = s.mbx ∧
    (raiseOpenPassage s src c k).cores = s.cores ∧ (raiseOpenPassage s src c k).img = s.img ∧ (raiseOpenPassage s
    src c k).vers = s.vers ∧ (raiseOpenPassage s src c k).gov = s.gov ∧ (raiseOpenPassage s src c k).sump = s.sump ∧
    (raiseOpenPassage s src c k).ves = s.ves ∧ (raiseOpenPassage s src c k).staging = s.staging ∧ (raiseOpenPassage
    s src c k).bmp = s.bmp ∧ (raiseOpenPassage s src c k).rope = s.rope ∧ (raiseOpenPassage s src c k).rlp = s.rlp ∧
    (raiseOpenPassage s src c k).pwr = s.pwr ∧ (raiseOpenPassage s src c k).wrap = s.wrap := by
  simp [raiseOpenPassage]
@[simp] theorem dropHold_frame {s : State} {q : Req} :
    (dropHold s q).pending = s.pending ∧ (dropHold s q).freeCtr = s.freeCtr ∧ (dropHold s q).hostMem = s.hostMem ∧
    (dropHold s q).silicon = s.silicon ∧ (dropHold s q).pins = s.pins ∧ (dropHold s q).boot = s.boot ∧ (dropHold s
    q).clock = s.clock ∧ (dropHold s q).regs = s.regs ∧ (dropHold s q).evt = s.evt ∧ (dropHold s q).intc = s.intc ∧
    (dropHold s q).mbx = s.mbx ∧ (dropHold s q).cores = s.cores ∧ (dropHold s q).img = s.img ∧ (dropHold s q).psc =
    s.psc ∧ (dropHold s q).vers = s.vers ∧ (dropHold s q).gov = s.gov ∧ (dropHold s q).sump = s.sump ∧ (dropHold s
    q).ves = s.ves ∧ (dropHold s q).staging = s.staging ∧ (dropHold s q).bmp = s.bmp ∧ (dropHold s q).rope = s.rope
    ∧ (dropHold s q).rlp = s.rlp ∧ (dropHold s q).ras = s.ras ∧ (dropHold s q).life = s.life ∧ (dropHold s q).pwr =
    s.pwr ∧ (dropHold s q).wrap = s.wrap := by
  unfold dropHold
  dsimp only
  split <;> simp

/-- Raising an event changes only the queues, numbers and lost count of the log, a pend bit, the flowstone accumulators
and the units of the log's slots. -/
@[simp] theorem raise_fields {s : State} {src c : Nat} {p : BitVec 24} :
    (raise s src c p).ras.leaky = s.ras.leaky ∧ (raise s src c p).ras.perm = s.ras.perm ∧ (raise s src c
    p).ras.retired = s.ras.retired ∧ (raise s src c p).ras.spareFor = s.ras.spareFor ∧ (raise s src c p).ras.failed
    = s.ras.failed ∧ (raise s src c p).ras.locPend = s.ras.locPend ∧ (raise s src c p).ras.retPend = s.ras.retPend ∧
    (raise s src c p).ras.restore = s.ras.restore ∧ (raise s src c p).ras.window = s.ras.window ∧ (raise s src c
    p).ras.audit = s.ras.audit ∧ (raise s src c p).ras.updFail = s.ras.updFail ∧ (raise s src c p).ras.gatherBad =
    s.ras.gatherBad ∧ (raise s src c p).ras.lostWait = s.ras.lostWait ∧ (raise s src c p).ras.suspAt = s.ras.suspAt
    ∧ (raise s src c p).ras.reclaimed = s.ras.reclaimed ∧ (raise s src c p).ras.excused = s.ras.excused ∧ (raise s
    src c p).evt.ring = s.evt.ring ∧ (raise s src c p).evt.head = s.evt.head ∧ (raise s src c p).evt.tail =
    s.evt.tail ∧ (raise s src c p).intc.act = s.intc.act ∧ (raise s src c p).intc.atgt = s.intc.atgt ∧ (raise s src
    c p).intc.level = s.intc.level ∧ (raise s src c p).intc.held = s.intc.held ∧ (raise s src c p).intc.modr =
    s.intc.modr ∧ (raise s src c p).intc.grace = s.intc.grace ∧ (raise s src c p).intc.sw = s.intc.sw ∧ (raise s src
    c p).life.rec_ = s.life.rec_ ∧ (raise s src c p).life.disc = s.life.disc ∧ (raise s src c p).life.saves =
    s.life.saves ∧ (raise s src c p).life.saveStep = s.life.saveStep ∧ (raise s src c p).life.stallBase =
    s.life.stallBase ∧ (raise s src c p).life.saveBuf = s.life.saveBuf ∧ (raise s src c p).life.restore =
    s.life.restore ∧ (raise s src c p).life.ready = s.life.ready ∧ (raise s src c p).life.busy = s.life.busy ∧
    (raise s src c p).life.telW = s.life.telW ∧ (raise s src c p).life.snapIss = s.life.snapIss ∧ (raise s src c
    p).life.snapStall = s.life.snapStall ∧ (raise s src c p).life.snapDroop = s.life.snapDroop ∧ (raise s src c
    p).life.sense = s.life.sense := by
  have h : ∀ (t : State) (n : Nat), (intPulse t n).evt = t.evt ∧ (intPulse t n).life = t.life ∧ (intPulse t n).ras = t.ras ∧
      (intPulse t n).intc.act = t.intc.act ∧ (intPulse t n).intc.atgt = t.intc.atgt ∧ (intPulse t n).intc.level = t.intc.level ∧
      (intPulse t n).intc.held = t.intc.held ∧ (intPulse t n).intc.modr = t.intc.modr ∧
      (intPulse t n).intc.grace = t.intc.grace ∧ (intPulse t n).intc.sw = t.intc.sw := by
    intro t n; unfold intPulse; split <;> simp
  unfold raise
  dsimp only
  split
  · simp [unitOut, setUnits]
  · simp [unitBack, unitOut, setUnits, loseEvents, countLife, h]

/-! What the operations write. -/

@[simp] theorem liveReg_setLive {s : State} {a : Nat} {v : Word} : liveReg (setLive s a v) a = v := by simp [liveReg, setLive]
theorem liveReg_setLive_other {s : State} {a b : Nat} {v : Word} (h : b ≠ a) : liveReg (setLive s a v) b = liveReg s b := by
  simp [liveReg, setLive, get_put_other _ _ _ _ _ h]
@[simp] theorem getCore_setCore {s : State} {n : Nat} {c : Core} : getCore (setCore s n c) n = c := by simp [getCore, setCore]
@[simp] theorem getReq_setReq {s : State} {r : Req} {q : ReqState} : getReq (setReq s r q) r = q := by simp [getReq, setReq]
@[simp] theorem getMbx_setMbx {s : State} {n : Nat} {m : Mailbox} : getMbx (setMbx s n m) n = m := by simp [getMbx, setMbx]
@[simp] theorem getPassage_setPassage {s : State} {p : Nat} {x : Passage} : getPassage (setPassage s p x) p = x := by
  simp [getPassage, setPassage]
@[simp] theorem getVer_setVer {s : State} {t : Nat} {v : TensorVer} : getVer (setVer s t v) t = v := by simp [getVer, setVer]
@[simp] theorem getLayer_setLayer {s : State} {l : Nat} {x : Layer} : getLayer (setLayer s l x) l = x := by simp [getLayer, setLayer]
@[simp] theorem getArray_setArray {s : State} {a : Nat} {x : ArrayState} : getArray (setArray s a x) a = x := by
  simp [getArray, setArray]
@[simp] theorem getVe_setVe {s : State} {n : Nat} {v : Ve} : getVe (setVe s n v) n = v := by simp [getVe, setVe]
@[simp] theorem getChan_setChan {s : State} {c : Nat} {x : Chan} : getChan (setChan s c x) c = x := by simp [getChan, setChan]
@[simp] theorem getRlp_setRlp {s : State} {c : Nat} {x : RlpChan} : getRlp (setRlp s c x) c = x := by simp [getRlp, setRlp]
@[simp] theorem getGroup_setGroup {s : State} {k : Nat} {g : Group} : getGroup (setGroup s k g) k = g := by simp [getGroup, setGroup]
@[simp] theorem getTotal_setTotal {s : State} {k : Nat} {v : Int} : getTotal (setTotal s k v) k = v := by simp [getTotal, setTotal]

/-- The record an event makes (R305). -/
def newRecord (s : State) (src c : Nat) (p : BitVec 24) : EvRec :=
  { source := BitVec.ofNat 8 src, seq := Tab.get (0 : Word) s.evt.seq src, time := s.clock.ts, code := BitVec.ofNat 16 c, payload := p }

/-- Where fewer than 8 records wait at its source, an event joins the end of that queue (R309). -/
theorem raise_queued {s : State} {src c : Nat} {p : BitVec 24} (h : (Tab.get [] s.evt.queues src).length < 8) :
    Tab.get [] (raise s src c p).evt.queues src = Tab.get [] s.evt.queues src ++ [newRecord s src c p] := by
  unfold raise
  dsimp only
  rw [if_pos (by simpa [unitOut, setUnits] using h)]
  simp [newRecord, unitOut, setUnits]
/-- With 8 waiting, it is lost and counted (R309). -/
theorem raise_lost {s : State} {src c : Nat} {p : BitVec 24} (h : ¬(Tab.get [] s.evt.queues src).length < 8) :
    (raise s src c p).evt.queues = s.evt.queues ∧ (raise s src c p).evt.overflow = satAdd s.evt.overflow 1 := by
  unfold raise
  dsimp only
  rw [if_neg (by simpa [unitOut, setUnits] using h)]
  simp only [unitBack_frame, loseEvents, countLife_frame]
  constructor <;> (unfold intPulse; split <;> simp [unitOut, setUnits])
/-- The source's sequence number rises in either case (R305). -/
theorem raise_seq {s : State} {src c : Nat} {p : BitVec 24} :
    Tab.get (0 : Word) (raise s src c p).evt.seq src = Tab.get (0 : Word) s.evt.seq src + 1 := by
  unfold raise
  dsimp only
  split
  · simp [unitOut, setUnits]
  · simp only [unitBack_frame, loseEvents, countLife_frame]
    unfold intPulse
    split <;> simp [unitOut, setUnits]

end Sys2Proof.Laws
end

