-- ==== Sys2Proof/Laws/SoundRecords.lean ====
section
/-! SUPPORT. The operations of Machine/Records.lean keep `Sound`. -/

namespace Sys2Proof.Laws

open Sys2Proof.Machine Sys2Proof.Safety

theorem retireElement_sound {s : State} {e : Element} (h_s : Sound s) :
    Sound (retireElement s e) := by
  unfold retireElement
  try dsimp only
  repeat' first
    | with_reducible assumption
    | intro _
    | split
    | (refine sound_good ?_; dsimp only; refine good_sound ?_)

theorem substitute_sound {s : State} {array : Nat} (h_s : Sound s) :
    Sound (substitute s array) := by
  unfold substitute
  try dsimp only
  repeat' first
    | with_reducible assumption
    | intro _
    | split
    | (refine sound_good ?_; dsimp only; refine good_sound ?_)

theorem placeSpares_sound {s : State} (h_s : Sound s) :
    Sound (placeSpares s) := by
  unfold placeSpares
  try dsimp only
  repeat' first
    | with_reducible assumption
    | with_reducible refine sound_foldl ?_ _ ?_
    | intro _
    | split
    | (refine sound_good ?_; dsimp only; refine good_sound ?_)

theorem spareApply_sound {s : State} {b : List Byte} (h_s : Sound s) :
    Sound (spareApply s b) := by
  unfold spareApply
  try dsimp only
  repeat' first
    | with_reducible assumption
    | with_reducible refine reservedRead_sound ?_
    | intro _
    | split
    | (refine sound_good ?_; dsimp only; refine good_sound ?_)

end Sys2Proof.Laws
end

