-- ==== Sys2Proof/Laws/SoundOperands.lean ====
section
/-! SUPPORT. The operations of Machine/Operands.lean keep `Sound`. -/

namespace Sys2Proof.Laws

open Sys2Proof.Machine Sys2Proof.Safety

theorem takeOwner_sound {s : State} {k : Nat} {p : Nat} (h_s : Sound s) :
    Sound (takeOwner s k p) := by
  unfold takeOwner
  try dsimp only
  repeat' first
    | with_reducible assumption
    | with_reducible refine setGroup_sound ?_
    | with_reducible refine unitOut_sound ?_
    | intro _
    | split
    | (refine sound_good ?_; dsimp only; refine good_sound ?_)

theorem resetSump_sound {s : State} (h_s : Sound s) :
    Sound (resetSump s) := by
  unfold resetSump
  try dsimp only
  repeat' first
    | with_reducible assumption
    | intro _
    | split
    | (refine sound_good ?_; dsimp only; refine good_sound ?_)

theorem freshRows_sound {s : State} {a : Nat} {base : Nat} {count : Nat} (h_s : Sound s) :
    Sound (freshRows s a base count) := by
  unfold freshRows
  try dsimp only
  repeat' first
    | with_reducible assumption
    | intro _
    | split
    | (refine sound_good ?_; dsimp only; refine good_sound ?_)

theorem recWrite_sound {s : State} {x : Nat} {o : Nat} {n : Nat} {v : Nat} (h_s : Sound s) :
    Sound (recWrite s x o n v) := by
  unfold recWrite
  try dsimp only
  repeat' first
    | with_reducible assumption
    | with_reducible refine portWrite_sound ?_
    | intro _
    | split
    | (refine sound_good ?_; dsimp only; refine good_sound ?_)

theorem noteRecord_sound {s : State} {x : Nat} (h_s : Sound s) :
    Sound (noteRecord s x) := by
  unfold noteRecord
  try dsimp only
  repeat' first
    | with_reducible assumption
    | with_reducible refine reservedRead_sound ?_
    | intro _
    | split
    | (refine sound_good ?_; dsimp only; refine good_sound ?_)

theorem resetSigma_sound {s : State} {x : Nat} {sigma : Int} {fmt : Nat} (h_s : Sound s) :
    Sound (resetSigma s x sigma fmt) := by
  unfold resetSigma
  try dsimp only
  repeat' first
    | with_reducible assumption
    | with_reducible refine recWrite_sound ?_
    | intro _
    | split
    | (refine sound_good ?_; dsimp only; refine good_sound ?_)

theorem resetFormats_sound {old : State} {s : State} (h_s : Sound s) :
    Sound (resetFormats old s) := by
  unfold resetFormats
  try dsimp only
  repeat' first
    | with_reducible assumption
    | with_reducible refine sound_foldl ?_ _ ?_
    | with_reducible refine resetSigma_sound ?_
    | intro _
    | split
    | (refine sound_good ?_; dsimp only; refine good_sound ?_)

theorem noteMask_sound {s : State} {m : Nat} (h_s : Sound s) :
    Sound (noteMask s m) := by
  unfold noteMask
  try dsimp only
  repeat' first
    | with_reducible assumption
    | with_reducible refine raiseOnceStep_sound ?_
    | with_reducible refine noteTable_sound ?_
    | with_reducible refine reservedWrite_sound ?_
    | intro _
    | split
    | (refine sound_good ?_; dsimp only; refine good_sound ?_)

theorem writeElem_sound {s : State} {slab : Nat} {part : Nat} {nib : Nat} {fmt : Nat} {code : Nat} {pad : Bool} (h_s : Sound s) :
    Sound (writeElem s slab part nib fmt code pad) := by
  unfold writeElem
  try dsimp only
  repeat' first
    | with_reducible assumption
    | with_reducible refine stWrite_sound ?_
    | intro _
    | split
    | (refine sound_good ?_; dsimp only; refine good_sound ?_)

theorem addHolder_sound {s : State} {k : Nat} {passage : Nat} {spec : Bool} (h_s : Sound s) :
    Sound (addHolder s k passage spec) := by
  unfold addHolder
  try dsimp only
  repeat' first
    | with_reducible assumption
    | intro _
    | split
    | (refine sound_good ?_; dsimp only; refine good_sound ?_)

theorem takeFree_sound {s : State} {k : Nat} {passage : Nat} {loan : Bool} {fixed : Bool} {spec : Bool} (h_s : Sound s) :
    Sound (takeFree s k passage loan fixed spec) := by
  unfold takeFree
  try dsimp only
  repeat' first
    | with_reducible assumption
    | with_reducible refine unitOut_sound ?_
    | intro _
    | split
    | (refine sound_good ?_; dsimp only; refine good_sound ?_)

theorem takeSlots_sound {s : State} {slab part passage : Nat} {fixed spec : Bool} {own : Nat} {l : List Nat} (h_s : Sound s) :
    Sound (takeSlots s slab part passage fixed spec own l) := by
  induction l generalizing s own with
  | nil => exact h_s
  | cons x xs ih => exact ih (takeFree_sound h_s)

theorem allocate_sound {s : State} {slab part : Nat} {slots : List Nat} {passage : Nat} {spec fixed : Bool} (h_s : Sound s) :
    ∀ t, allocate s slab part slots passage spec fixed = some t → Sound t := by
  intro t h
  unfold allocate at h
  dsimp only at h
  split at h
  · cases h
  · cases h
    exact takeSlots_sound (sound_foldl (fun _ _ h => addHolder_sound h) _ h_s)

theorem releaseSlot_sound {s : State} {k : Nat} (h_s : Sound s) : Sound (releaseSlot s k) :=
  unitBack_sound ⟨h_s.1, dropRange_sorted _ _ h_s.2.1, h_s.2.2⟩

end Sys2Proof.Laws
end

