-- ==== Sys2Proof/Laws/SoundFlags.lean ====
section
/-! SUPPORT. The operations of Machine/Flags.lean keep `Sound`. -/

namespace Sys2Proof.Laws

open Sys2Proof.Machine Sys2Proof.Safety

theorem tally_sound {s : State} {upd : Bool} {stream : Nat} {t : StreamStat} (h_s : Sound s) :
    Sound (tally s upd stream t) := by
  unfold tally
  try dsimp only
  repeat' first
    | with_reducible assumption
    | intro _
    | split
    | (refine sound_good ?_; dsimp only; refine good_sound ?_)

theorem tallyNonfin_sound {s : State} {upd : Bool} {stream : Nat} {n : Nat} (h_s : Sound s) :
    Sound (tallyNonfin s upd stream n) := by
  unfold tallyNonfin
  try dsimp only
  repeat' first
    | with_reducible assumption
    | with_reducible refine tally_sound ?_
    | intro _
    | split
    | (refine sound_good ?_; dsimp only; refine good_sound ?_)

theorem tallyRead_sound {s : State} {p : Nat} {stream : Nat} {n : Nat} (h_s : Sound s) :
    Sound (tallyRead s p stream n) := by
  unfold tallyRead
  try dsimp only
  repeat' first
    | with_reducible assumption
    | with_reducible refine tallyNonfin_sound ?_
    | with_reducible refine setPassage_sound ?_
    | intro _
    | split
    | (refine sound_good ?_; dsimp only; refine good_sound ?_)

theorem settleReads_sound {s : State} {p : Nat} (h_s : Sound s) :
    Sound (settleReads s p) := by
  unfold settleReads
  try dsimp only
  repeat' first
    | with_reducible assumption
    | with_reducible refine sound_foldl ?_ _ ?_
    | with_reducible refine sound_foldl_on Prod.fst ?_ _ ?_
    | with_reducible refine tallyNonfin_sound ?_
    | with_reducible refine setPassage_sound ?_
    | intro _
    | split
    | (refine sound_good ?_; dsimp only; refine good_sound ?_)

theorem noteJit_sound {s : State} {stream : Nat} {out : TileOut} (h_s : Sound s) :
    Sound (noteJit s stream out) := by
  unfold noteJit
  try dsimp only
  repeat' first
    | with_reducible assumption
    | with_reducible refine countLife_sound ?_
    | with_reducible refine raiseOnceStep_sound ?_
    | intro _
    | split
    | (refine sound_good ?_; dsimp only; refine good_sound ?_)

theorem calibrate_sound {s : State} {table : Nat} {channel : Nat} (h_s : Sound s) :
    Sound (calibrate s table channel) := by
  unfold calibrate
  try dsimp only
  repeat' first
    | with_reducible assumption
    | with_reducible refine raiseOnceStep_sound ?_
    | intro _
    | split
    | (refine sound_good ?_; dsimp only; refine good_sound ?_)

theorem noteUndeclared_sound {s : State} {source : Nat} {passage : Nat} {kind : Nat} {index : Nat} {port : Nat} (h_s : Sound s) :
    Sound (noteUndeclared s source passage kind index port) := by
  unfold noteUndeclared
  try dsimp only
  repeat' first
    | with_reducible assumption
    | with_reducible refine raiseOncePassage_sound ?_
    | intro _
    | split
    | (refine sound_good ?_; dsimp only; refine good_sound ?_)

theorem notePassage_sound {s : State} {source : Nat} {code : Nat} {passage : Nat} {payload : BitVec 24} (h_s : Sound s) :
    Sound (notePassage s source code passage payload) := by
  unfold notePassage
  try dsimp only
  repeat' first
    | with_reducible assumption
    | with_reducible refine raiseOncePassage_sound ?_
    | intro _
    | split
    | (refine sound_good ?_; dsimp only; refine good_sound ?_)

theorem noteContext_sound {s : State} {passage : Nat} (h_s : Sound s) :
    Sound (noteContext s passage) := by
  unfold noteContext
  try dsimp only
  repeat' first
    | with_reducible assumption
    | with_reducible refine raiseOpenPassage_sound ?_
    | intro _
    | split
    | (refine sound_good ?_; dsimp only; refine good_sound ?_)

theorem noteStaging_sound {s : State} {slab : Nat} {array : Nat} {passage : Nat} (h_s : Sound s) :
    Sound (noteStaging s slab array passage) := by
  unfold noteStaging
  try dsimp only
  repeat' first
    | with_reducible assumption
    | with_reducible refine notePassage_sound ?_
    | intro _
    | split
    | (refine sound_good ?_; dsimp only; refine good_sound ?_)

theorem writeSide_sound {s : State} {side : Nat} {place : Nat} {pitch : Nat} {tile : Nat} {sigma : Int} {delta : Int} (h_s : Sound s) :
    Sound (writeSide s side place pitch tile sigma delta) := by
  unfold writeSide
  try dsimp only
  repeat' first
    | with_reducible assumption
    | with_reducible refine portWrite_sound ?_
    | intro _
    | split
    | (refine sound_good ?_; dsimp only; refine good_sound ?_)

end Sys2Proof.Laws
end

