-- ==== Sys2Proof/Laws/SoundRlpBase.lean ====
section
/-! SUPPORT. The operations of Machine/RlpBase.lean keep `Sound`. -/

namespace Sys2Proof.Laws

open Sys2Proof.Machine Sys2Proof.Safety

theorem refillQueue_sound {s : State} {ch : Nat} (h_s : Sound s) :
    Sound (refillQueue s ch) := by
  unfold refillQueue
  try dsimp only
  repeat' first
    | with_reducible assumption
    | with_reducible refine setRlp_sound ?_
    | intro _
    | split
    | (refine sound_good ?_; dsimp only; refine good_sound ?_)

theorem queueFrame_sound {s : State} {ch : Nat} {op : Nat} {f : Frame} (h_s : Sound s) :
    Sound (queueFrame s ch op f) := by
  unfold queueFrame
  try dsimp only
  repeat' first
    | with_reducible assumption
    | with_reducible refine refillQueue_sound ?_
    | intro _
    | split
    | (refine sound_good ?_; dsimp only; refine good_sound ?_)

theorem sendOutcome_sound {s : State} {tile : Nat} {payload : List Byte} (h_s : Sound s) :
    Sound (sendOutcome s tile payload) := by
  unfold sendOutcome
  try dsimp only
  repeat' first
    | with_reducible assumption
    | with_reducible refine sound_foldl ?_ _ ?_
    | with_reducible refine queueFrame_sound ?_
    | intro _
    | split
    | (refine sound_good ?_; dsimp only; refine good_sound ?_)

end Sys2Proof.Laws
end

