-- ==== Sys2Proof/Laws/SoundGroups.lean ====
section
/-! SUPPORT. The operations of Machine/Groups.lean keep `Sound`. -/

namespace Sys2Proof.Laws

open Sys2Proof.Machine Sys2Proof.Safety

theorem dropBuffers_sound {s : State} (h_s : Sound s) :
    Sound (dropBuffers s) := by
  unfold dropBuffers
  try dsimp only
  repeat' first
    | with_reducible assumption
    | with_reducible refine sound_foldl ?_ _ ?_
    | with_reducible refine sound_foldl_on Prod.fst ?_ _ ?_
    | with_reducible refine releaseSlot_sound ?_
    | intro _
    | split
    | (refine sound_good ?_; dsimp only; refine good_sound ?_)

theorem takeBuffers_sound {s : State} (h_s : Sound s) :
    Sound (takeBuffers s) := by
  unfold takeBuffers
  try dsimp only
  repeat' first
    | with_reducible assumption
    | with_reducible refine sound_foldl ?_ _ ?_
    | with_reducible refine takeFree_sound ?_
    | intro _
    | split
    | (refine sound_good ?_; dsimp only; refine good_sound ?_)

theorem noteEntries_sound {s : State} {a : Nat} {width : Nat} {n : Nat} {limit : Nat} (h_s : Sound s) :
    Sound (noteEntries s a width n limit) := by
  unfold noteEntries
  try dsimp only
  repeat' first
    | with_reducible assumption
    | with_reducible refine sound_foldl ?_ _ ?_
    | with_reducible refine noteTable_sound ?_
    | intro _
    | split
    | (refine sound_good ?_; dsimp only; refine good_sound ?_)

theorem noteRgroup_sound {s : State} {g : Nat} (h_s : Sound s) :
    Sound (noteRgroup s g) := by
  unfold noteRgroup
  try dsimp only
  repeat' first
    | with_reducible assumption
    | with_reducible refine noteTable_sound ?_
    | with_reducible refine reservedRead_sound ?_
    | with_reducible refine noteEntries_sound ?_
    | intro _
    | split
    | (refine sound_good ?_; dsimp only; refine good_sound ?_)

theorem readGroups_sound {s : State} (h_s : Sound s) :
    Sound (readGroups s) := by
  unfold readGroups
  try dsimp only
  repeat' first
    | with_reducible assumption
    | with_reducible refine sound_foldl ?_ _ ?_
    | with_reducible refine sound_foldl_on Prod.fst ?_ _ ?_
    | with_reducible refine raise_sound ?_
    | with_reducible refine dropBuffers_sound ?_
    | with_reducible refine takeBuffers_sound ?_
    | with_reducible refine noteRgroup_sound ?_
    | intro _
    | split
    | (refine sound_good ?_; dsimp only; refine good_sound ?_)

end Sys2Proof.Laws
end

