-- ==== Sys2Proof/Laws/SoundStartup.lean ====
section
/-! SUPPORT. The operations of Machine/Startup.lean keep `Sound`. -/

namespace Sys2Proof.Laws

open Sys2Proof.Machine Sys2Proof.Safety

theorem bootFail_sound {s : State} {code : BitVec 8} {low : Nat} (h : Still s) : Sound (bootFail s code low) :=
  raise_sound (still_stage 15 (s := { s with boot := { s.boot with fail := code } }) (still_of h (sound_good (good_sound h.1)) rfl rfl rfl rfl) (.inr rfl))

theorem raise_still {s : State} {source code : Nat} {p : BitVec 24} (h : Still s) : Still (raise s source code p) :=
  still_of h (raise_sound h.1) (by simp) (by simp) (by simp) (by simp)

theorem toReset_sound {s : State} {pins : Pins} (h_s : Sound s) : Sound (toReset s pins) := by
  refine ⟨h_s.1, ?_, ?_, ?_, ?_, ?_, ?_⟩ <;> simp [toReset, State.atReset, Psc.reset, Mem.wf, Tab.sorted, Tab.get]

theorem rstFall_sound {s : State} (h_s : Sound s) :
    Sound (rstFall s) := by
  unfold rstFall
  try dsimp only
  repeat' first
    | with_reducible assumption
    | with_reducible refine toReset_sound ?_
    | intro _
    | split
    | (refine sound_good ?_; dsimp only; refine good_sound ?_)

theorem rstRise_sound {s : State} (h_s : Sound s) : Sound (rstRise s) := by
  unfold rstRise
  split
  · exact h_s
  · rename_i hr
    have h0 : s.boot.stage = 0 := h_s.2.2.2.1 (by simpa using hr)
    have hA : ¬(s.psc.run || s.psc.stepOn || s.ras.lostWait) = true := by
      intro hc; have := h_s.2.2.2.2.1 hc; rw [h0] at this; exact absurd this (by decide)
    refine still_stage 1 ⟨⟨h_s.1, h_s.2.1, h_s.2.2.1, by simp, ?_, h_s.2.2.2.2.2⟩, rfl, by simpa [and_assoc] using hA⟩ (.inl (by decide))
    intro hc; exact absurd hc hA

theorem testEnChange_sound {s : State} (h_s : Sound s) : Sound (testEnChange s) := by
  unfold testEnChange
  split
  · have h := toReset_sound (pins := { s.pins with testEn := !s.pins.testEn, applyOut := false, rampReq := false }) h_s
    exact sound_good (good_sound h)
  · refine sound_good ?_; dsimp only; exact good_sound h_s

theorem domainRelease_sound {s : State} (h_s : Sound s) : Sound (domainRelease s) := by
  unfold domainRelease
  split
  · rename_i h; exact still_stage 2 (sound_still h_s (by simp [h]) (by simp [h])) (.inl (by decide))
  · exact h_s

theorem setTrims_still {s : State} {n : Nat} {l : List Word} (h : Still s) : Still (setTrims s n l) := by
  induction l generalizing s n with
  | nil => exact h
  | cons w ws ih =>
    unfold setTrims
    split
    · exact ih (still_of h (setLive_sound h.1) rfl rfl rfl rfl)
    · exact h

theorem levelEdges_keep {now : BitVec 256} {l : List Nat} {s : State} :
    (l.foldl (levelEdge now) s).pins = s.pins ∧ (l.foldl (levelEdge now) s).psc = s.psc ∧
      (l.foldl (levelEdge now) s).ras = s.ras := by
  induction l generalizing s with
  | nil => exact ⟨rfl, rfl, rfl⟩
  | cons n l ih =>
    have h : (levelEdge now s n).pins = s.pins ∧ (levelEdge now s n).psc = s.psc ∧ (levelEdge now s n).ras = s.ras := by
      unfold levelEdge; dsimp only; split <;> exact ⟨rfl, rfl, rfl⟩
    have := @ih (levelEdge now s n)
    exact ⟨this.1.trans h.1, this.2.1.trans h.2.1, this.2.2.trans h.2.2⟩
theorem sampleLevels_keep {s : State} :
    (sampleLevels s).pins = s.pins ∧ (sampleLevels s).psc = s.psc ∧ (sampleLevels s).ras = s.ras := by
  unfold sampleLevels
  dsimp only
  split
  · exact ⟨rfl, rfl, rfl⟩
  · exact levelEdges_keep
theorem clearRecords_sound {s : State} (h_s : Sound s) : Sound (clearRecords s) := by
  have ht : Sound (sampleLevels { s with
    evt := { s.evt with ring := [], head := 0, tail := 0 }, mbx := [],
    intc := { s.intc with pend := 0, act := 0, atgt := [], pulse := 0, held := [], modr := 0, grace := [], sw := 0 } }) :=
    sampleLevels_sound ⟨h_s.1, h_s.2.1, h_s.2.2.1, h_s.2.2.2.1, h_s.2.2.2.2.1, h_s.2.2.2.2.2.1, by simp⟩
  unfold clearRecords
  refine sound_good ?_; dsimp only; exact good_sound ht

theorem noteFuses_sound {s : State} {f : FuseRead} (h_s : Sound s) :
    Sound (noteFuses s f) := by
  unfold noteFuses
  try dsimp only
  repeat' first
    | with_reducible assumption
    | intro _
    | split
    | (refine sound_good ?_; dsimp only; refine good_sound ?_)

theorem clearRecords_still {s : State} (h : Still s) : Still (clearRecords s) := by
  have hk := @sampleLevels_keep { s with
    evt := { s.evt with ring := [], head := 0, tail := 0 }, mbx := [],
    intc := { s.intc with pend := 0, act := 0, atgt := [], pulse := 0, held := [], modr := 0, grace := [], sw := 0 } }
  exact still_of h (clearRecords_sound h.1) (congrArg (·.rstN) hk.1) (congrArg (·.run) hk.2.1) (congrArg (·.stepOn) hk.2.1)
    (congrArg (·.lostWait) hk.2.2)

theorem fuseStage_sound {s : State} {f : FuseRead} (h_s : Sound s) : Sound (fuseStage s f) := by
  unfold fuseStage
  split
  · exact h_s
  · rename_i h
    have h : s.boot.stage = 2 := by simp at h; exact h.1
    have hn : Sound (noteFuses s f) := by unfold noteFuses; refine sound_good ?_; dsimp only; exact good_sound h_s
    have hs := clearRecords_still (sound_still hn (by simp [noteFuses, h]) (by simp [noteFuses, h]))
    dsimp only
    split
    · exact bootFail_sound hs
    · have ht := setTrims_still (n := 0) (l := f.trims) (still_of (t := { clearRecords (noteFuses s f) with
          silicon := { (clearRecords (noteFuses s f)).silicon with dieId := f.dieId, fuseMap := f.retired } }) hs
        (sound_good (good_sound hs.1)) rfl rfl rfl rfl)
      split
      · exact still_stage 3 ht (.inl (by decide))
      · exact bootFail_sound ht

theorem spareWrite_sound {s : State} {req : Req} {off : Nat} {v : Word} (h_s : Sound s) :
    Sound (spareWrite s req off v) := by
  unfold spareWrite
  try dsimp only
  repeat' first
    | with_reducible assumption
    | with_reducible refine reservedWrite_sound ?_
    | intro _
    | split
    | (refine sound_good ?_; dsimp only; refine good_sound ?_)

theorem sparesDone_sound {s : State} {req : Req} (h_s : Sound s) : Sound (sparesDone s req) := by
  unfold sparesDone
  split
  · exact reservedWrite_sound h_s
  · rename_i h
    have h : s.boot.stage = 3 := by simpa using h
    have hs := sound_still h_s (by simp [h]) (by simp [h])
    dsimp only
    refine still_stage 4 ?_ (.inl (by decide))
    split
    · exact hs
    · split
      · refine still_of hs (spareApply_sound h_s) ?_ ?_ ?_ ?_ <;> (unfold spareApply; dsimp only; split <;> simp [reservedRead])
      · exact still_of hs (raiseOpen_sound h_s) (by simp) (by simp) (by simp) (by simp [raiseOpen, bumpFree])

theorem spareMapping_sound {s : State} (h_s : Sound s) : Sound (spareMapping s) := by
  unfold spareMapping
  split
  · rename_i h; exact still_stage 5 (sound_still h_s (by simp [h]) (by simp [h])) (.inl (by decide))
  · exact h_s

theorem retireElement_still {s : State} {e : Element} (h : Still s) : Still (retireElement s e) :=
  still_of h (retireElement_sound h.1) rfl rfl rfl rfl
theorem substitute_still {s : State} {a : Nat} (h : Still s) : Still (substitute s a) :=
  still_of h (substitute_sound h.1) rfl rfl rfl rfl
theorem placeSpares_still {s : State} (h : Still s) : Still (placeSpares s) :=
  still_of h (placeSpares_sound h.1) rfl rfl rfl rfl
theorem bistAct_sound {s : State} {l : List BistFinding} (h : Still s) : Sound (bistAct s l) := by
  induction l generalizing s with
  | nil =>
    exact still_stage 6 (still_of h ⟨h.1.1, by simp [Mem.wf, Tab.sorted], h.1.2.2⟩ rfl rfl rfl rfl) (.inl (by decide))
  | cons x l ih =>
    cases x with
    | element e =>
      unfold bistAct
      split
      · exact ih (raise_still (retireElement_still h))
      · split
        · exact ih h
        · split
          · exact ih (raise_still (placeSpares_still (substitute_still h)))
          · exact bootFail_sound h
    | wholeArray a =>
      unfold bistAct
      split
      · exact ih h
      · split
        · exact ih (raise_still (placeSpares_still (substitute_still h)))
        · exact bootFail_sound h
    | memory m slab => exact bootFail_sound h

theorem clearCores_sound {s : State} (h_s : Sound s) : Sound (clearCores s) := by
  unfold clearCores
  refine sound_good ?_; dsimp only; exact good_sound h_s

theorem clearCores_still {s : State} (h : Still s) : Still (clearCores s) :=
  still_of h (clearCores_sound h.1) rfl rfl rfl rfl
theorem bistComplete_sound {s : State} {found : List BistFinding} (h_s : Sound s) : Sound (bistComplete s found) := by
  unfold bistComplete
  split
  · rename_i h; exact bistAct_sound (clearCores_still (sound_still h_s (by simp [h]) (by simp [h])))
  · exact h_s

theorem setSense_sound {s : State} {vs : List (BitVec 16)} (h_s : Sound s) :
    Sound (setSense s vs) := by
  unfold setSense
  try dsimp only
  repeat' first
    | with_reducible assumption
    | intro _
    | split
    | (refine sound_good ?_; dsimp only; refine good_sound ?_)

theorem sensorStage_sound {s : State} {ok : Bool} {vs : List (BitVec 16)} (h_s : Sound s) : Sound (sensorStage s ok vs) := by
  unfold sensorStage
  split
  · exact h_s
  · rename_i h
    have h : s.boot.stage = 6 := by simpa using h
    have hs : Still (setSense s vs) := still_of (sound_still h_s (by simp [h]) (by simp [h])) (setSense_sound h_s) rfl rfl rfl rfl
    split
    · exact still_stage 7 hs (.inl (by decide))
    · exact bootFail_sound hs

theorem lifeWrite_sound {s : State} {req : Req} {off : Nat} {v : Word} (h_s : Sound s) :
    Sound (lifeWrite s req off v) := by
  unfold lifeWrite
  try dsimp only
  repeat' first
    | with_reducible assumption
    | with_reducible refine reservedWrite_sound ?_
    | intro _
    | split
    | (refine sound_good ?_; dsimp only; refine good_sound ?_)

theorem lifeDone_sound {s : State} {req : Req} (h_s : Sound s) : Sound (lifeDone s req) := by
  unfold lifeDone
  split
  · exact reservedWrite_sound h_s
  · rename_i h
    have h : s.boot.stage = 7 := by simpa using h
    have hs := sound_still h_s (by simp [h]) (by simp [h])
    dsimp only
    have key : ∀ t : State, Still t → ∀ l b, b.stage = t.boot.stage → Sound (setStage { t with life := l, boot := b } 8) := by
      intro t ht l b hb
      refine still_stage 8 (still_of ht ?_ rfl rfl rfl rfl) (.inl (by decide))
      have := ht.1
      exact ⟨this.1, this.2.1, hb ▸ this.2.2.1, hb ▸ this.2.2.2.1, hb ▸ this.2.2.2.2.1, this.2.2.2.2.2⟩
    split
    · exact key _ (raise_still hs) _ _ rfl
    · exact key _ hs _ _ rfl

theorem negStart_sound {s : State} {up : BitVec 64} {ver : BitVec 2} (h_s : Sound s) :
    Sound (negStart s up ver) := by
  unfold negStart
  try dsimp only
  repeat' first
    | with_reducible assumption
    | intro _
    | split
    | (refine sound_good ?_; dsimp only; refine good_sound ?_)

theorem creditBack_sound {s : State} {spent : Nat} (h_s : Sound s) :
    Sound (creditBack s spent) := by
  unfold creditBack
  try dsimp only
  repeat' first
    | with_reducible assumption
    | with_reducible refine unitBack_sound ?_
    | intro _
    | split
    | (refine sound_good ?_; dsimp only; refine good_sound ?_)

theorem reqCredit_sound {s : State} {ch : Nat} (h_s : Sound s) :
    Sound (reqCredit s ch) := by
  unfold reqCredit
  try dsimp only
  repeat' first
    | with_reducible assumption
    | with_reducible refine setChan_sound ?_
    | with_reducible refine raise_sound ?_
    | with_reducible refine creditBack_sound ?_
    | intro _
    | split
    | (refine sound_good ?_; dsimp only; refine good_sound ?_)

theorem wdataCredit_sound {s : State} {ch : Nat} (h_s : Sound s) :
    Sound (wdataCredit s ch) := by
  unfold wdataCredit
  try dsimp only
  repeat' first
    | with_reducible assumption
    | with_reducible refine setChan_sound ?_
    | with_reducible refine creditBack_sound ?_
    | intro _
    | split
    | (refine sound_good ?_; dsimp only; refine good_sound ?_)

theorem negEnd_sound {s : State} {up : BitVec 64} {lanes : BitVec 32} (h_s : Sound s) : Sound (negEnd s up lanes) := by
  unfold negEnd
  split
  · exact h_s
  · rename_i h
    have h : s.boot.stage = 8 := Decidable.byContradiction fun hc => h (.inl hc)
    have hs := sound_still h_s (by simp [h]) (by simp [h])
    dsimp only
    have key : ∀ b p m r, b.stage = s.boot.stage → p.rstN = s.pins.rstN → Still { s with boot := b, pins := p, bmp := m, rlp := r } := by
      intro b p m r hb hp
      refine still_of hs ?_ hp rfl rfl rfl
      exact ⟨h_s.1, h_s.2.1, hb ▸ h_s.2.2.1, by rw [hb, hp]; exact h_s.2.2.2.1, hb ▸ h_s.2.2.2.2.1, h_s.2.2.2.2.2⟩
    have out : ∀ (c : Prop) [Decidable c] (t : State) (n : Nat), Still t → Still (if c then t else unitOut t 1 n) := by
      intro c _ t n ht
      split
      · exact ht
      · exact still_of ht (unitOut_sound ht.1) rfl rfl rfl rfl
    split
    · exact bootFail_sound (out _ _ _ (key _ _ _ _ rfl rfl))
    · exact raise_sound (still_stage 9 (out _ _ _ (key _ _ _ _ rfl rfl)) (.inl (by decide)))

theorem negTimeout_sound {s : State} (h_s : Sound s) : Sound (negTimeout s) := by
  unfold negTimeout
  split
  · rename_i h; exact bootFail_sound (sound_still h_s (by simp [h.1]) (by simp [h.1]))
  · exact h_s

theorem laneUp_sound {s : State} {lanes : BitVec 32} {ver : BitVec 2} (h_s : Sound s) :
    Sound (laneUp s lanes ver) := by
  unfold laneUp
  try dsimp only
  repeat' first
    | with_reducible assumption
    | intro _
    | split
    | (refine sound_good ?_; dsimp only; refine good_sound ?_)

theorem checkReady_sound {s : State} (h_s : Sound s) : Sound (checkReady s) := by
  unfold checkReady
  split
  · split
    · rename_i h
      have h : s.boot.stage = 9 := by simp at h; exact h.1
      exact raise_sound (still_stage 10 (sound_still h_s (by simp [h]) (by simp [h])) (.inl (by decide)))
    · exact h_s
  · exact h_s

end Sys2Proof.Laws
end

