-- ==== Sys2Proof/Laws/SoundLoader.lean ====
section
/-! SUPPORT. The operations of Machine/Loader.lean keep `Sound`. -/

namespace Sys2Proof.Laws

open Sys2Proof.Machine Sys2Proof.Safety

theorem imgReject_sound {s : State} {code : Nat} {sect : Nat} (h_s : Sound s) :
    Sound (imgReject s code sect) := by
  unfold imgReject
  try dsimp only
  repeat' first
    | with_reducible assumption
    | with_reducible refine raise_sound ?_
    | intro _
    | split
    | (refine sound_good ?_; dsimp only; refine good_sound ?_)

theorem imgLoad_sound {s : State} (h_s : Sound s) :
    Sound (imgLoad s) := by
  unfold imgLoad
  try dsimp only
  repeat' first
    | with_reducible assumption
    | with_reducible refine raise_sound ?_
    | with_reducible refine imgReject_sound ?_
    | intro _
    | split
    | (refine sound_good ?_; dsimp only; refine good_sound ?_)

theorem imageValidate_sound {s : State} {fetchOk : Bool} (h_s : Sound s) :
    Sound (imageValidate s fetchOk) := by
  unfold imageValidate
  try dsimp only
  repeat' first
    | with_reducible assumption
    | with_reducible refine raise_sound ?_
    | with_reducible refine reservedRead_sound ?_
    | with_reducible refine imgReject_sound ?_
    | intro _
    | split
    | (refine sound_good ?_; dsimp only; refine good_sound ?_)

theorem planeSwap_sound {s : State} (h_s : Sound s) :
    Sound (planeSwap s) := by
  unfold planeSwap
  try dsimp only
  repeat' first
    | with_reducible assumption
    | with_reducible refine raise_sound ?_
    | with_reducible refine checkReady_sound ?_
    | with_reducible refine dropBuffers_sound ?_
    | with_reducible refine takeBuffers_sound ?_
    | with_reducible refine resetSump_sound ?_
    | with_reducible refine resetFormats_sound ?_
    | intro _
    | split
    | (refine sound_good ?_; dsimp only; refine good_sound ?_)

theorem imgSwap_sound {s : State} (h_s : Sound s) :
    Sound (imgSwap s) := by
  unfold imgSwap
  try dsimp only
  repeat' first
    | with_reducible assumption
    | with_reducible refine raiseOpen_sound ?_
    | with_reducible refine planeSwap_sound ?_
    | intro _
    | split
    | (refine sound_good ?_; dsimp only; refine good_sound ?_)

end Sys2Proof.Laws
end

