-- ==== Sys2Proof/Laws/SoundVersions.lean ====
section
/-! SUPPORT. The operations of Machine/Versions.lean keep `Sound`. -/

namespace Sys2Proof.Laws

open Sys2Proof.Machine Sys2Proof.Safety

theorem noteVerReserved_sound {s : State} {t : Nat} (h_s : Sound s) :
    Sound (noteVerReserved s t) := by
  unfold noteVerReserved
  try dsimp only
  repeat' first
    | with_reducible assumption
    | with_reducible refine raiseOnceStep_sound ?_
    | with_reducible refine reservedWrite_sound ?_
    | intro _
    | split
    | (refine sound_good ?_; dsimp only; refine good_sound ?_)

theorem noteVer_sound {s : State} {t : Nat} (h_s : Sound s) :
    Sound (noteVer s t) := by
  unfold noteVer
  try dsimp only
  repeat' first
    | with_reducible assumption
    | with_reducible refine noteTable_sound ?_
    | with_reducible refine noteVerReserved_sound ?_
    | intro _
    | split
    | (refine sound_good ?_; dsimp only; refine good_sound ?_)

theorem acquireNow_sound {s : State} {binding : Nat} {t : Nat} (h_s : Sound s) :
    Sound (acquireNow s binding t) := by
  unfold acquireNow
  try dsimp only
  repeat' first
    | with_reducible assumption
    | with_reducible refine setVer_sound ?_
    | with_reducible refine raiseOpen_sound ?_
    | intro _
    | split
    | (refine sound_good ?_; dsimp only; refine good_sound ?_)

theorem releaseNow_sound {s : State} {binding : Nat} {t : Nat} (h_s : Sound s) :
    Sound (releaseNow s binding t) := by
  unfold releaseNow
  try dsimp only
  repeat' first
    | with_reducible assumption
    | with_reducible refine setVer_sound ?_
    | with_reducible refine raiseOpen_sound ?_
    | intro _
    | split
    | (refine sound_good ?_; dsimp only; refine good_sound ?_)

theorem versionWrite_sound {s : State} {release : Bool} {binding : Nat} {t : Nat} (h_s : Sound s) :
    Sound (versionWrite s release binding t) := by
  unfold versionWrite
  try dsimp only
  repeat' first
    | with_reducible assumption
    | with_reducible refine setVer_sound ?_
    | with_reducible refine acquireNow_sound ?_
    | with_reducible refine releaseNow_sound ?_
    | intro _
    | split
    | (refine sound_good ?_; dsimp only; refine good_sound ?_)

theorem versionRegister_sound {s : State} {req : Req} {release : Bool} {binding : Nat} {first : Nat} {last : Nat} (h_s : Sound s) :
    Sound (versionRegister s req release binding first last) := by
  unfold versionRegister
  try dsimp only
  repeat' first
    | with_reducible assumption
    | with_reducible refine sound_foldl ?_ _ ?_
    | with_reducible refine reservedWrite_sound ?_
    | with_reducible refine versionWrite_sound ?_
    | intro _
    | split
    | (refine sound_good ?_; dsimp only; refine good_sound ?_)

theorem versionSlot_sound {s : State} {release : Bool} {binding : Nat} {first : Nat} {last : Nat} (h_s : Sound s) :
    Sound (versionSlot s release binding first last) := by
  unfold versionSlot
  try dsimp only
  repeat' first
    | with_reducible assumption
    | with_reducible refine sound_foldl ?_ _ ?_
    | with_reducible refine versionWrite_sound ?_
    | intro _
    | split
    | (refine sound_good ?_; dsimp only; refine good_sound ?_)

theorem commitVersions_sound {s : State} (h_s : Sound s) :
    Sound (commitVersions s) := by
  unfold commitVersions
  try dsimp only
  repeat' first
    | with_reducible assumption
    | with_reducible refine sound_foldl ?_ _ ?_
    | with_reducible refine sound_foldl_on Prod.fst ?_ _ ?_
    | with_reducible refine unitOut_sound ?_
    | with_reducible refine unitBack_sound ?_
    | intro _
    | split
    | (refine sound_good ?_; dsimp only; refine good_sound ?_)

theorem abortVersions_sound {s : State} (h_s : Sound s) :
    Sound (abortVersions s) := by
  unfold abortVersions
  try dsimp only
  repeat' first
    | with_reducible assumption
    | intro _
    | split
    | (refine sound_good ?_; dsimp only; refine good_sound ?_)

theorem markBindings_sound {s : State} (h_s : Sound s) :
    Sound (markBindings s) := by
  unfold markBindings
  try dsimp only
  repeat' first
    | with_reducible assumption
    | intro _
    | split
    | (refine sound_good ?_; dsimp only; refine good_sound ?_)

theorem markUpdating_sound {s : State} {t : Nat} (h_s : Sound s) :
    Sound (markUpdating s t) := by
  unfold markUpdating
  try dsimp only
  repeat' first
    | with_reducible assumption
    | with_reducible refine setVer_sound ?_
    | intro _
    | split
    | (refine sound_good ?_; dsimp only; refine good_sound ?_)

theorem boundaryVersions_sound {s : State} (h_s : Sound s) :
    Sound (boundaryVersions s) := by
  unfold boundaryVersions
  try dsimp only
  repeat' first
    | with_reducible assumption
    | with_reducible refine sound_foldl ?_ _ ?_
    | with_reducible refine sound_foldl_on Prod.fst ?_ _ ?_
    | with_reducible refine acquireNow_sound ?_
    | with_reducible refine releaseNow_sound ?_
    | intro _
    | split
    | (refine sound_good ?_; dsimp only; refine good_sound ?_)

end Sys2Proof.Laws
end

