-- ==== Sys2Proof/Laws/SoundStepCtl.lean ====
section
/-! SUPPORT. The operations of Machine/StepCtl.lean keep `Sound`. -/

namespace Sys2Proof.Laws

open Sys2Proof.Machine Sys2Proof.Safety

theorem postMailbox_sound {s : State} {n : Nat} {v : BitVec 64} (h_s : Sound s) :
    Sound (postMailbox s n v) := by
  unfold postMailbox
  try dsimp only
  repeat' first
    | with_reducible assumption
    | with_reducible refine setMbx_sound ?_
    | with_reducible refine intPulse_sound ?_
    | intro _
    | split
    | (refine sound_good ?_; dsimp only; refine good_sound ?_)

theorem openMailbox_sound {s : State} {n : Nat} (h_s : Sound s) :
    Sound (openMailbox s n) := by
  unfold openMailbox
  try dsimp only
  repeat' first
    | with_reducible assumption
    | with_reducible refine setMbx_sound ?_
    | intro _
    | split
    | (refine sound_good ?_; dsimp only; refine good_sound ?_)

theorem nextSigma_sound {s : State} {x : Nat} {st : Stream} (h_s : Sound s) :
    Sound (nextSigma s x st) := by
  unfold nextSigma
  try dsimp only
  repeat' first
    | with_reducible assumption
    | with_reducible refine sound_foldl ?_ _ ?_
    | with_reducible refine recWrite_sound ?_
    | intro _
    | split
    | (refine sound_good ?_; dsimp only; refine good_sound ?_)

theorem commitStream_sound {s : State} {x : Nat} {q : StreamStat} (h_s : Sound s) :
    Sound (commitStream s x q) := by
  unfold commitStream
  try dsimp only
  repeat' first
    | with_reducible assumption
    | with_reducible refine portWrite_sound ?_
    | with_reducible refine recWrite_sound ?_
    | intro _
    | split
    | (refine sound_good ?_; dsimp only; refine good_sound ?_)

theorem commitScales_sound {s : State} (h_s : Sound s) :
    Sound (commitScales s) := by
  unfold commitScales
  try dsimp only
  repeat' first
    | with_reducible assumption
    | with_reducible refine sound_foldl ?_ _ ?_
    | with_reducible refine nextSigma_sound ?_
    | intro _
    | split
    | (refine sound_good ?_; dsimp only; refine good_sound ?_)

theorem commitFragment_sound {s : State} {f : Fragment} (h_s : Sound s) :
    Sound (commitFragment s f) := by
  unfold commitFragment
  try dsimp only
  repeat' first
    | with_reducible assumption
    | with_reducible refine sound_foldl ?_ _ ?_
    | with_reducible refine sound_foldl_on Prod.fst ?_ _ ?_
    | with_reducible refine commitStream_sound ?_
    | intro _
    | split
    | (refine sound_good ?_; dsimp only; refine good_sound ?_)

theorem writeCalib_sound {s : State} {t : Nat} (h_s : Sound s) :
    Sound (writeCalib s t) := by
  unfold writeCalib
  try dsimp only
  repeat' first
    | with_reducible assumption
    | with_reducible refine portWrite_sound ?_
    | intro _
    | split
    | (refine sound_good ?_; dsimp only; refine good_sound ?_)

theorem noteRecords_sound {s : State} {scales : Bool} {gov : Bool} (h_s : Sound s) :
    Sound (noteRecords s scales gov) := by
  unfold noteRecords
  try dsimp only
  repeat' first
    | with_reducible assumption
    | with_reducible refine sound_foldl ?_ _ ?_
    | with_reducible refine noteRecord_sound ?_
    | intro _
    | split
    | (refine sound_good ?_; dsimp only; refine good_sound ?_)

theorem govMove_sound {s : State} {l : Nat} {dst : Nat} {cause : Nat} {products : Nat} (h_s : Sound s) :
    Sound (govMove s l dst cause products) := by
  unfold govMove
  try dsimp only
  repeat' first
    | with_reducible assumption
    | with_reducible refine setLayer_sound ?_
    | with_reducible refine countLife_sound ?_
    | with_reducible refine raise_sound ?_
    | with_reducible refine portWrite_sound ?_
    | intro _
    | split
    | (refine sound_good ?_; dsimp only; refine good_sound ?_)

theorem governLayer_sound {s : State} {l : Nat} (h_s : Sound s) :
    Sound (governLayer s l) := by
  unfold governLayer
  try dsimp only
  repeat' first
    | with_reducible assumption
    | with_reducible refine sound_foldl ?_ _ ?_
    | with_reducible refine sound_foldl_on Prod.fst ?_ _ ?_
    | with_reducible refine setLayer_sound ?_
    | with_reducible refine raise_sound ?_
    | with_reducible refine govMove_sound ?_
    | intro _
    | split
    | (refine sound_good ?_; dsimp only; refine good_sound ?_)

theorem govern_sound {s : State} {lockMatch : Bool} (h_s : Sound s) :
    Sound (govern s lockMatch) := by
  unfold govern
  try dsimp only
  repeat' first
    | with_reducible assumption
    | with_reducible refine sound_foldl ?_ _ ?_
    | with_reducible refine raiseOpen_sound ?_
    | with_reducible refine governLayer_sound ?_
    | intro _
    | split
    | (refine sound_good ?_; dsimp only; refine good_sound ?_)

theorem lifeStalls_sound {s : State} (h_s : Sound s) :
    Sound (lifeStalls s) := by
  unfold lifeStalls
  try dsimp only
  repeat' first
    | with_reducible assumption
    | with_reducible refine sound_foldl ?_ _ ?_
    | intro _
    | split
    | (refine sound_good ?_; dsimp only; refine good_sound ?_)

theorem auditOne_sound {s : State} {q : Nat} (h_s : Sound s) :
    Sound (auditOne s q) := by
  unfold auditOne
  try dsimp only
  repeat' first
    | with_reducible assumption
    | with_reducible refine countLife_sound ?_
    | with_reducible refine raise_sound ?_
    | intro _
    | split
    | (refine sound_good ?_; dsimp only; refine good_sound ?_)
    | (refine sound_good ?_; dsimp only; refine good_less ?_ (by simp) (by simp) (by simp))

theorem auditStep_sound {s : State} (h_s : Sound s) :
    Sound (auditStep s) := by
  unfold auditStep
  try dsimp only
  repeat' first
    | with_reducible assumption
    | with_reducible refine sound_foldl ?_ _ ?_
    | with_reducible refine auditOne_sound ?_
    | intro _
    | split
    | (refine sound_good ?_; dsimp only; refine good_sound ?_)

theorem writeScalars_sound {s : State} {dest : Nat} {l : List Word} (h_s : Sound s) : Sound (writeScalars s dest l) := by
  induction l generalizing s dest with
  | nil => exact h_s
  | cons w ws ih => exact ih (setCore_sound h_s)

theorem finishRun_sound {s : State} {o : Op} (h_s : Sound s) :
    Sound (finishRun s o) := by
  unfold finishRun
  try dsimp only
  repeat' first
    | with_reducible assumption
    | with_reducible refine setVe_sound ?_
    | with_reducible refine writeScalars_sound ?_
    | intro _
    | split
    | (refine sound_good ?_; dsimp only; refine good_sound ?_)

theorem releaseOwners_sound {s : State} {f : Nat × Nat → Bool} (h_s : Sound s) :
    Sound (releaseOwners s f) := by
  unfold releaseOwners
  try dsimp only
  repeat' first
    | with_reducible assumption
    | with_reducible refine unitBack_sound ?_
    | intro _
    | split
    | (refine sound_good ?_; dsimp only; refine good_sound ?_)

theorem returnCredits_sound {s : State} {f : BmpReq → Bool} (h_s : Sound s) :
    Sound (returnCredits s f) := by
  unfold returnCredits
  try dsimp only
  repeat' first
    | with_reducible assumption
    | with_reducible refine unitBack_sound ?_
    | intro _
    | split
    | (refine sound_good ?_; dsimp only; refine good_sound ?_)

theorem keepJobs_sound {s : State} {f : Job → Bool} (h_s : Sound s) :
    Sound (keepJobs s f) := by
  unfold keepJobs
  try dsimp only
  repeat' first
    | with_reducible assumption
    | intro _
    | split
    | (refine sound_good ?_; dsimp only; refine good_sound ?_)

theorem settleOps_sound {s : State} (h_s : Sound s) :
    Sound (settleOps s) := by
  unfold settleOps
  try dsimp only
  repeat' first
    | with_reducible assumption
    | with_reducible refine keepJobs_sound ?_
    | intro _
    | split
    | (refine sound_good ?_; dsimp only; refine good_sound ?_)

theorem releaseStaging_sound {s : State} (h_s : Sound s) : Sound (releaseStaging s) :=
  unitBack_sound ⟨h_s.1, by simp [Mem.wf, Tab.sorted], h_s.2.2⟩

theorem endHold_sound {s : State} {h : Nat} (h_s : Sound s) :
    Sound (endHold s h) := by
  unfold endHold
  try dsimp only
  repeat' first
    | with_reducible assumption
    | with_reducible refine countLife_sound ?_
    | intro _
    | split
    | (refine sound_good ?_; dsimp only; refine good_sound ?_)

theorem clearStepQueues_sound {s : State} (h_s : Sound s) :
    Sound (clearStepQueues s) := by
  unfold clearStepQueues
  try dsimp only
  repeat' first
    | with_reducible assumption
    | with_reducible refine sound_foldl ?_ _ ?_
    | with_reducible refine sound_foldl_on Prod.fst ?_ _ ?_
    | with_reducible refine unitBack_sound ?_
    | with_reducible refine endHold_sound ?_
    | intro _
    | split
    | (refine sound_good ?_; dsimp only; refine good_sound ?_)

theorem clearScheduler_sound {s : State} (h_s : Sound s) :
    Sound (clearScheduler s) := by
  unfold clearScheduler
  try dsimp only
  repeat' first
    | with_reducible assumption
    | intro _
    | split
    | (refine sound_good ?_; dsimp only; refine good_sound ?_)
    | (refine sound_good ?_; dsimp only; refine good_less ?_ (by simp) (by simp) (by simp))

theorem applyRungs_sound {s : State} (h_s : Sound s) :
    Sound (applyRungs s) := by
  unfold applyRungs
  try dsimp only
  repeat' first
    | with_reducible assumption
    | intro _
    | split
    | (refine sound_good ?_; dsimp only; refine good_sound ?_)

theorem boundaryStream_sound {old : State} {s : State} {x : Nat} (h_s : Sound s) :
    Sound (boundaryStream old s x) := by
  unfold boundaryStream
  try dsimp only
  repeat' first
    | with_reducible assumption
    | with_reducible refine recWrite_sound ?_
    | with_reducible refine resetSigma_sound ?_
    | intro _
    | split
    | (refine sound_good ?_; dsimp only; refine good_sound ?_)

theorem boundaryScales_sound {s : State} (h_s : Sound s) :
    Sound (boundaryScales s) := by
  unfold boundaryScales
  try dsimp only
  repeat' first
    | with_reducible assumption
    | with_reducible refine sound_foldl ?_ _ ?_
    | with_reducible refine applyRungs_sound ?_
    | with_reducible refine boundaryStream_sound ?_
    | intro _
    | split
    | (refine sound_good ?_; dsimp only; refine good_sound ?_)

theorem sampleLocks_sound {s : State} (h_s : Sound s) :
    Sound (sampleLocks s) := by
  unfold sampleLocks
  try dsimp only
  repeat' first
    | with_reducible assumption
    | intro _
    | split
    | (refine sound_good ?_; dsimp only; refine good_sound ?_)

theorem returnGuesses_sound {s : State} (h_s : Sound s) :
    Sound (returnGuesses s) := by
  unfold returnGuesses
  try dsimp only
  repeat' first
    | with_reducible assumption
    | with_reducible refine returnCredits_sound ?_
    | intro _
    | split
    | (refine sound_good ?_; dsimp only; refine good_sound ?_)

theorem stepBoundary_sound {s : State} (h_s : Sound s) :
    Sound (stepBoundary s) := by
  unfold stepBoundary
  try dsimp only
  repeat' first
    | with_reducible assumption
    | with_reducible refine planeSwap_sound ?_
    | with_reducible refine boundaryVersions_sound ?_
    | with_reducible refine lifeStalls_sound ?_
    | with_reducible refine auditStep_sound ?_
    | with_reducible refine settleOps_sound ?_
    | with_reducible refine releaseStaging_sound ?_
    | with_reducible refine clearStepQueues_sound ?_
    | with_reducible refine clearScheduler_sound ?_
    | with_reducible refine boundaryScales_sound ?_
    | with_reducible refine sampleLocks_sound ?_
    | with_reducible refine returnGuesses_sound ?_
    | with_reducible refine resetSump_sound ?_
    | intro _
    | split
    | (refine sound_good ?_; dsimp only; refine good_sound ?_)
    | (refine sound_good ?_; dsimp only; refine good_less ?_ (by simp) (by simp) (by simp))

theorem tryBoundary_sound {s : State} (h_s : Sound s) :
    Sound (tryBoundary s) := by
  unfold tryBoundary
  try dsimp only
  repeat' first
    | with_reducible assumption
    | with_reducible refine stepBoundary_sound ?_
    | intro _
    | split
    | (refine sound_good ?_; dsimp only; refine good_sound ?_)

theorem commitStep_sound {s : State} {frags : Option (List Fragment)} {lockMatch : Bool} (h_s : Sound s) :
    Sound (commitStep s frags lockMatch) := by
  unfold commitStep
  try dsimp only
  repeat' first
    | with_reducible assumption
    | with_reducible refine sound_foldl ?_ _ ?_
    | with_reducible refine countLife_sound ?_
    | with_reducible refine raise_sound ?_
    | with_reducible refine commitVersions_sound ?_
    | with_reducible refine postMailbox_sound ?_
    | with_reducible refine commitScales_sound ?_
    | with_reducible refine commitFragment_sound ?_
    | with_reducible refine writeCalib_sound ?_
    | with_reducible refine noteRecords_sound ?_
    | with_reducible refine govern_sound ?_
    | with_reducible refine tryBoundary_sound ?_
    | intro _
    | split
    | (refine sound_good ?_; dsimp only; refine good_sound ?_)
    | (refine sound_good ?_; dsimp only; refine good_less ?_ (by simp) (by simp) (by simp))

theorem abortPassage_sound {s : State} {px : Nat × Passage} (h_s : Sound s) :
    Sound (abortPassage s px) := by
  unfold abortPassage
  try dsimp only
  repeat' first
    | with_reducible assumption
    | with_reducible refine raiseOpen_sound ?_
    | intro _
    | split
    | (refine sound_good ?_; dsimp only; refine good_sound ?_)

theorem abortStep_sound {s : State} (h_s : Sound s) :
    Sound (abortStep s) := by
  unfold abortStep
  try dsimp only
  repeat' first
    | with_reducible assumption
    | with_reducible refine sound_foldl ?_ _ ?_
    | with_reducible refine sound_foldl_on Prod.fst ?_ _ ?_
    | with_reducible refine countLife_sound ?_
    | with_reducible refine sampleLevels_sound ?_
    | with_reducible refine raise_sound ?_
    | with_reducible refine placeSpares_sound ?_
    | with_reducible refine abortVersions_sound ?_
    | with_reducible refine postMailbox_sound ?_
    | with_reducible refine lifeStalls_sound ?_
    | with_reducible refine auditStep_sound ?_
    | with_reducible refine releaseOwners_sound ?_
    | with_reducible refine returnCredits_sound ?_
    | with_reducible refine settleOps_sound ?_
    | with_reducible refine releaseStaging_sound ?_
    | with_reducible refine clearStepQueues_sound ?_
    | with_reducible refine clearScheduler_sound ?_
    | with_reducible refine abortPassage_sound ?_
    | with_reducible refine resetSump_sound ?_
    | intro _
    | split
    | (refine sound_good ?_; dsimp only; refine good_sound ?_)
    | (refine sound_good ?_; dsimp only; refine good_less ?_ (by simp) (by simp) (by simp))

theorem dropInflight_sound {s : State} {cs : List Chunk} (h_s : Sound s) :
    Sound (dropInflight s cs) := by
  unfold dropInflight
  try dsimp only
  repeat' first
    | with_reducible assumption
    | with_reducible refine sound_foldl ?_ _ ?_
    | with_reducible refine setGroup_sound ?_
    | intro _
    | split
    | (refine sound_good ?_; dsimp only; refine good_sound ?_)

theorem finishBurst_sound {s : State} {op : Nat} (h_s : Sound s) :
    Sound (finishBurst s op) := by
  unfold finishBurst
  try dsimp only
  repeat' first
    | with_reducible assumption
    | with_reducible refine finishOp_sound ?_
    | intro _
    | split
    | (refine sound_good ?_; dsimp only; refine good_sound ?_)

theorem cutBurst_sound {s : State} {a : Nat} {b : LastBurst} {n : Nat} (h_s : Sound s) :
    Sound (cutBurst s a b n) := by
  unfold cutBurst
  try dsimp only
  repeat' first
    | with_reducible assumption
    | with_reducible refine setArray_sound ?_
    | with_reducible refine setGroup_sound ?_
    | with_reducible refine dropInflight_sound ?_
    | with_reducible refine finishBurst_sound ?_
    | intro _
    | split
    | (refine sound_good ?_; dsimp only; refine good_sound ?_)

theorem stopArray_sound {s : State} {a : Nat} (h_s : Sound s) :
    Sound (stopArray s a) := by
  unfold stopArray
  try dsimp only
  repeat' first
    | with_reducible assumption
    | with_reducible refine setArray_sound ?_
    | with_reducible refine cutBurst_sound ?_
    | intro _
    | split
    | (refine sound_good ?_; dsimp only; refine good_sound ?_)

theorem stopArrays_sound {s : State} {as : List Nat} (h_s : Sound s) :
    Sound (stopArrays s as) := by
  unfold stopArrays
  try dsimp only
  repeat' first
    | with_reducible assumption
    | with_reducible refine sound_foldl ?_ _ ?_
    | with_reducible refine stopArray_sound ?_
    | intro _
    | split
    | (refine sound_good ?_; dsimp only; refine good_sound ?_)

theorem abortWhenDone_sound {s : State} (h_s : Sound s) :
    Sound (abortWhenDone s) := by
  unfold abortWhenDone
  try dsimp only
  repeat' first
    | with_reducible assumption
    | with_reducible refine abortStep_sound ?_
    | with_reducible refine stopArrays_sound ?_
    | intro _
    | split
    | (refine sound_good ?_; dsimp only; refine good_sound ?_)

theorem dueAbort_sound {s : State} (h_s : Sound s) :
    Sound (dueAbort s) := by
  unfold dueAbort
  try dsimp only
  repeat' first
    | with_reducible assumption
    | with_reducible refine abortStep_sound ?_
    | intro _
    | split
    | (refine sound_good ?_; dsimp only; refine good_sound ?_)

theorem rootAbort_sound {s : State} (h_s : Sound s) :
    Sound (rootAbort s) := by
  unfold rootAbort
  try dsimp only
  repeat' first
    | with_reducible assumption
    | with_reducible refine sendOutcome_sound ?_
    | with_reducible refine abortWhenDone_sound ?_
    | intro _
    | split
    | (refine sound_good ?_; dsimp only; refine good_sound ?_)

theorem callAbort_sound {s : State} (h_s : Sound s) :
    Sound (callAbort s) := by
  unfold callAbort
  try dsimp only
  repeat' first
    | with_reducible assumption
    | with_reducible refine abortWhenDone_sound ?_
    | with_reducible refine rootAbort_sound ?_
    | intro _
    | split
    | (refine sound_good ?_; dsimp only; refine good_sound ?_)

theorem endStep_sound {s : State} (h_s : Sound s) :
    Sound (endStep s) := by
  unfold endStep
  try dsimp only
  repeat' first
    | with_reducible assumption
    | with_reducible refine stopArrays_sound ?_
    | with_reducible refine callAbort_sound ?_
    | intro _
    | split
    | (refine sound_good ?_; dsimp only; refine good_sound ?_)

theorem uncorrectable_sound {s : State} {unit : Nat} {slab : Nat} {addr : Nat} (h_s : Sound s) :
    Sound (uncorrectable s unit slab addr) := by
  unfold uncorrectable
  try dsimp only
  repeat' first
    | with_reducible assumption
    | with_reducible refine countLife_sound ?_
    | with_reducible refine raise_sound ?_
    | with_reducible refine endStep_sound ?_
    | intro _
    | split
    | (refine sound_good ?_; dsimp only; refine good_sound ?_)

end Sys2Proof.Laws
end

