-- ==== Sys2Proof/Laws/SoundFaults.lean ====
section
/-! SUPPORT. The operations of Machine/Faults.lean keep `Sound`. -/

namespace Sys2Proof.Laws

open Sys2Proof.Machine Sys2Proof.Safety

theorem declarePermanent_sound {s : State} {cls : Nat} {index : Nat} (h_s : Sound s) :
    Sound (declarePermanent s cls index) := by
  unfold declarePermanent
  try dsimp only
  repeat' first
    | with_reducible assumption
    | with_reducible refine raise_sound ?_
    | intro _
    | split
    | (refine sound_good ?_; dsimp only; refine good_sound ?_)

theorem transient_sound {s : State} {cls : Nat} {index : Nat} (h_s : Sound s) :
    Sound (transient s cls index).1 := by
  unfold transient
  try dsimp only
  repeat' first
    | with_reducible assumption
    | with_reducible refine declarePermanent_sound ?_
    | intro _
    | split
    | (refine sound_good ?_; dsimp only; refine good_sound ?_)

theorem columnFaults_sound {s : State} {a : Nat} {col : Nat} {width : Nat} (h_s : Sound s) :
    Sound (columnFaults s a col width) := by
  unfold columnFaults
  try dsimp only
  repeat' first
    | with_reducible assumption
    | with_reducible refine sound_foldl ?_ _ ?_
    | with_reducible refine sound_foldl_on Prod.fst ?_ _ ?_
    | with_reducible refine transient_sound ?_
    | with_reducible refine stopArray_sound ?_
    | intro _
    | split
    | (refine sound_good ?_; dsimp only; refine good_sound ?_)

end Sys2Proof.Laws
end

