-- ==== Sys2Proof/Laws/SoundOutcome.lean ====
section
/-! SUPPORT. The operations of Machine/Outcome.lean keep `Sound`. -/

namespace Sys2Proof.Laws

open Sys2Proof.Machine Sys2Proof.Safety

theorem tryCommit_sound {s : State} (h_s : Sound s) :
    Sound (tryCommit s) := by
  unfold tryCommit
  try dsimp only
  repeat' first
    | with_reducible assumption
    | with_reducible refine commitStep_sound ?_
    | intro _
    | split
    | (refine sound_good ?_; dsimp only; refine good_sound ?_)

theorem rootTry_sound {s : State} (h_s : Sound s) :
    Sound (rootTry s) := by
  unfold rootTry
  try dsimp only
  repeat' first
    | with_reducible assumption
    | with_reducible refine sound_foldl ?_ _ ?_
    | with_reducible refine sound_foldl_on Prod.fst ?_ _ ?_
    | with_reducible refine tryCommit_sound ?_
    | with_reducible refine sendOutcome_sound ?_
    | intro _
    | split
    | (refine sound_good ?_; dsimp only; refine good_sound ?_)

end Sys2Proof.Laws
end

