-- ==== Sys2Proof/Laws/SoundRamp.lean ====
section
/-! SUPPORT. The operations of Machine/Ramp.lean keep `Sound`. -/

namespace Sys2Proof.Laws

open Sys2Proof.Machine Sys2Proof.Safety

theorem latchAclk_sound {s : State} (h_s : Sound s) :
    Sound (latchAclk s) := by
  unfold latchAclk
  try dsimp only
  repeat' first
    | with_reducible assumption
    | intro _
    | split
    | (refine sound_good ?_; dsimp only; refine good_sound ?_)

theorem beginRamp_sound {s : State} (h_s : Sound s) :
    Sound (beginRamp s) := by
  unfold beginRamp
  try dsimp only
  repeat' first
    | with_reducible assumption
    | intro _
    | split
    | (refine sound_good ?_; dsimp only; refine good_sound ?_)

theorem ackRamp_sound {s : State} (h_s : Sound s) :
    Sound (ackRamp s) := by
  unfold ackRamp
  try dsimp only
  repeat' first
    | with_reducible assumption
    | with_reducible refine beginRamp_sound ?_
    | intro _
    | split
    | (refine sound_good ?_; dsimp only; refine good_sound ?_)

theorem startRamp_sound {s : State} (h_s : Sound s) :
    Sound (startRamp s) := by
  unfold startRamp
  try dsimp only
  repeat' first
    | with_reducible assumption
    | with_reducible refine beginRamp_sound ?_
    | intro _
    | split
    | (refine sound_good ?_; dsimp only; refine good_sound ?_)

theorem heldAclk_sound {s : State} {cause : Nat} {n : Nat} (h_s : Sound s) :
    Sound (heldAclk s cause n) := by
  unfold heldAclk
  try dsimp only
  repeat' first
    | with_reducible assumption
    | with_reducible refine countLife_sound ?_
    | with_reducible refine passAclk_sound ?_
    | with_reducible refine countStall_sound ?_
    | intro _
    | split
    | (refine sound_good ?_; dsimp only; refine good_sound ?_)

end Sys2Proof.Laws
end

