-- ==== Sys2Proof/Laws/SoundScheduler.lean ====
section
/-! SUPPORT. The operations of Machine/Scheduler.lean keep `Sound`. -/

namespace Sys2Proof.Laws

open Sys2Proof.Machine Sys2Proof.Safety

theorem noteVariant_sound {s : State} {p : Nat} {e : PEntry} (h_s : Sound s) :
    Sound (noteVariant s p e) := by
  unfold noteVariant
  try dsimp only
  repeat' first
    | with_reducible assumption
    | with_reducible refine notePassage_sound ?_
    | intro _
    | split
    | (refine sound_good ?_; dsimp only; refine good_sound ?_)

theorem checkPassage_sound {s : State} {p : Nat} (h_s : Sound s) :
    Sound (checkPassage s p) := by
  unfold checkPassage
  try dsimp only
  repeat' first
    | with_reducible assumption
    | with_reducible refine sound_foldl ?_ _ ?_
    | with_reducible refine raise_sound ?_
    | with_reducible refine noteTable_sound ?_
    | with_reducible refine reservedRead_sound ?_
    | intro _
    | split
    | (refine sound_good ?_; dsimp only; refine good_sound ?_)

theorem checkRule_sound {s : State} {l : Nat} (h_s : Sound s) :
    Sound (checkRule s l) := by
  unfold checkRule
  try dsimp only
  repeat' first
    | with_reducible assumption
    | with_reducible refine raise_sound ?_
    | with_reducible refine noteTable_sound ?_
    | with_reducible refine reservedRead_sound ?_
    | intro _
    | split
    | (refine sound_good ?_; dsimp only; refine good_sound ?_)

theorem settleLayer_sound {s : State} {l : Nat} (h_s : Sound s) :
    Sound (settleLayer s l) := by
  unfold settleLayer
  try dsimp only
  repeat' first
    | with_reducible assumption
    | with_reducible refine setLayer_sound ?_
    | intro _
    | split
    | (refine sound_good ?_; dsimp only; refine good_sound ?_)

theorem checkOutliers_sound {s : State} {x : Nat} (h_s : Sound s) :
    Sound (checkOutliers s x) := by
  unfold checkOutliers
  try dsimp only
  repeat' first
    | with_reducible assumption
    | with_reducible refine raiseOnceStep_sound ?_
    | with_reducible refine noteTable_sound ?_
    | with_reducible refine reservedWrite_sound ?_
    | intro _
    | split
    | (refine sound_good ?_; dsimp only; refine good_sound ?_)

theorem checkStream_sound {s : State} {x : Nat} (h_s : Sound s) :
    Sound (checkStream s x) := by
  unfold checkStream
  try dsimp only
  repeat' first
    | with_reducible assumption
    | with_reducible refine raiseOnceStep_sound ?_
    | with_reducible refine noteTable_sound ?_
    | with_reducible refine reservedRead_sound ?_
    | with_reducible refine checkOutliers_sound ?_
    | with_reducible refine noteRecord_sound ?_
    | with_reducible refine resetSigma_sound ?_
    | intro _
    | split
    | (refine sound_good ?_; dsimp only; refine good_sound ?_)

theorem noteStream_sound {s : State} {x : Nat} (h_s : Sound s) :
    Sound (noteStream s x) := by
  unfold noteStream
  try dsimp only
  repeat' first
    | with_reducible assumption
    | with_reducible refine raiseOnceStep_sound ?_
    | intro _
    | split
    | (refine sound_good ?_; dsimp only; refine good_sound ?_)

theorem firstAttempt_sound {s : State} (h_s : Sound s) :
    Sound (firstAttempt s) := by
  unfold firstAttempt
  try dsimp only
  repeat' first
    | with_reducible assumption
    | with_reducible refine sound_foldl ?_ _ ?_
    | with_reducible refine checkPassage_sound ?_
    | with_reducible refine checkRule_sound ?_
    | with_reducible refine settleLayer_sound ?_
    | with_reducible refine checkStream_sound ?_
    | with_reducible refine markBindings_sound ?_
    | intro _
    | split
    | (refine sound_good ?_; dsimp only; refine good_sound ?_)

theorem sweepSlots_sound {s : State} (h_s : Sound s) :
    Sound (sweepSlots s) := by
  unfold sweepSlots
  try dsimp only
  repeat' first
    | with_reducible assumption
    | with_reducible refine sound_foldl ?_ _ ?_
    | with_reducible refine sound_foldl_on Prod.fst ?_ _ ?_
    | with_reducible refine releaseSlot_sound ?_
    | intro _
    | split
    | (refine sound_good ?_; dsimp only; refine good_sound ?_)

theorem dropHolder_sound {p : Nat} {s : State} {k : Nat} (h_s : Sound s) :
    Sound (dropHolder p s k) := by
  unfold dropHolder
  try dsimp only
  repeat' first
    | with_reducible assumption
    | with_reducible refine releaseSlot_sound ?_
    | intro _
    | split
    | (refine sound_good ?_; dsimp only; refine good_sound ?_)

theorem returnPrefetch_sound {s : State} {p : Nat} (h_s : Sound s) :
    Sound (returnPrefetch s p) := by
  unfold returnPrefetch
  try dsimp only
  repeat' first
    | with_reducible assumption
    | with_reducible refine sound_foldl ?_ _ ?_
    | with_reducible refine sound_foldl_on Prod.fst ?_ _ ?_
    | with_reducible refine dropHolder_sound ?_
    | with_reducible refine returnCredits_sound ?_
    | with_reducible refine keepJobs_sound ?_
    | intro _
    | split
    | (refine sound_good ?_; dsimp only; refine good_sound ?_)

theorem allocateFg_sound {s : State} {slab part : Nat} {slots : List Nat} {passage : Nat} {fixed : Bool} {n : Nat} (h_s : Sound s) :
    ∀ t, allocateFg s slab part slots passage fixed n = some t → Sound t := by
  induction n generalizing s with
  | zero => exact allocate_sound h_s
  | succ n ih =>
    intro t h
    unfold allocateFg at h
    split at h
    · rename_i u hu; cases h; exact allocate_sound h_s _ hu
    · split at h
      · exact ih (returnPrefetch_sound h_s) _ h
      · cases h

theorem requestSlots_sound {s : State} {slab : Nat} {part : Nat} {slots : List Nat} {passage : Nat} (h_s : Sound s) :
    Sound (requestSlots s slab part slots passage) := by
  unfold requestSlots
  try dsimp only
  repeat' first
    | with_reducible assumption
    | with_reducible refine allocateFg_sound ?_ _ ‹_›
    | intro _
    | split
    | (refine sound_good ?_; dsimp only; refine good_sound ?_)

theorem holdSlot_sound {s : State} {slab : Nat} {part : Nat} {slot : Nat} {passage : Nat} (h_s : Sound s) :
    Sound (holdSlot s slab part slot passage).1 := by
  unfold holdSlot
  try dsimp only
  repeat' first
    | with_reducible assumption
    | with_reducible refine requestSlots_sound ?_
    | intro _
    | split
    | (refine sound_good ?_; dsimp only; refine good_sound ?_)

theorem serveWait_sound {s : State} {slab : Nat} {part : Nat} (h_s : Sound s) :
    Sound (serveWait s slab part) := by
  unfold serveWait
  try dsimp only
  repeat' first
    | with_reducible assumption
    | with_reducible refine allocateFg_sound ?_ _ ‹_›
    | intro _
    | split
    | (refine sound_good ?_; dsimp only; refine good_sound ?_)

theorem startFetch_sound {s : State} {p : Nat} {i : Nat} {spec : Bool} (h_s : Sound s) :
    Sound (startFetch s p i spec) := by
  unfold startFetch
  try dsimp only
  repeat' first
    | with_reducible assumption
    | with_reducible refine allocate_sound ?_ _ ‹_›
    | with_reducible refine requestSlots_sound ?_
    | intro _
    | split
    | (refine sound_good ?_; dsimp only; refine good_sound ?_)

theorem startFetches_sound {s : State} {p : Nat} {spec : Bool} (h_s : Sound s) :
    Sound (startFetches s p spec) := by
  unfold startFetches
  try dsimp only
  repeat' first
    | with_reducible assumption
    | with_reducible refine sound_foldl ?_ _ ?_
    | with_reducible refine startFetch_sound ?_
    | intro _
    | split
    | (refine sound_good ?_; dsimp only; refine good_sound ?_)

theorem noteVersion_sound {s : State} {p : Nat} {i : Nat} {e : REntry} (h_s : Sound s) :
    Sound (noteVersion s p i e) := by
  unfold noteVersion
  try dsimp only
  repeat' first
    | with_reducible assumption
    | with_reducible refine setPassage_sound ?_
    | with_reducible refine raiseOpenStep_sound ?_
    | with_reducible refine raiseOpenPassage_sound ?_
    | with_reducible refine noteVer_sound ?_
    | intro _
    | split
    | (refine sound_good ?_; dsimp only; refine good_sound ?_)

theorem noteVersions_sound {s : State} {p : Nat} (h_s : Sound s) :
    Sound (noteVersions s p) := by
  unfold noteVersions
  try dsimp only
  repeat' first
    | with_reducible assumption
    | with_reducible refine sound_foldl ?_ _ ?_
    | with_reducible refine sound_foldl_on Prod.fst ?_ _ ?_
    | with_reducible refine noteVersion_sound ?_
    | intro _
    | split
    | (refine sound_good ?_; dsimp only; refine good_sound ?_)

theorem dropFalse_sound {s : State} {p : Nat} (h_s : Sound s) :
    Sound (dropFalse s p) := by
  unfold dropFalse
  try dsimp only
  repeat' first
    | with_reducible assumption
    | with_reducible refine setPassage_sound ?_
    | intro _
    | split
    | (refine sound_good ?_; dsimp only; refine good_sound ?_)

theorem considerPassage_sound {s : State} {p : Nat} (h_s : Sound s) :
    Sound (considerPassage s p) := by
  unfold considerPassage
  try dsimp only
  repeat' first
    | with_reducible assumption
    | with_reducible refine setPassage_sound ?_
    | with_reducible refine noteVariant_sound ?_
    | with_reducible refine startFetches_sound ?_
    | with_reducible refine noteVersions_sound ?_
    | intro _
    | split
    | (refine sound_good ?_; dsimp only; refine good_sound ?_)

theorem prefetchWindow_sound {s : State} (h_s : Sound s) :
    Sound (prefetchWindow s) := by
  unfold prefetchWindow
  try dsimp only
  repeat' first
    | with_reducible assumption
    | with_reducible refine sound_foldl ?_ _ ?_
    | with_reducible refine startFetches_sound ?_
    | intro _
    | split
    | (refine sound_good ?_; dsimp only; refine good_sound ?_)

theorem refresh_sound {s : State} (h_s : Sound s) :
    Sound (refresh s) := by
  unfold refresh
  try dsimp only
  repeat' first
    | with_reducible assumption
    | with_reducible refine sound_foldl ?_ _ ?_
    | with_reducible refine dropFalse_sound ?_
    | with_reducible refine considerPassage_sound ?_
    | with_reducible refine prefetchWindow_sound ?_
    | intro _
    | split
    | (refine sound_good ?_; dsimp only; refine good_sound ?_)

theorem advance_sound {s : State} (h_s : Sound s) :
    Sound (advance s) := by
  unfold advance
  try dsimp only
  repeat' first
    | with_reducible assumption
    | with_reducible refine passAclk_sound ?_
    | with_reducible refine refresh_sound ?_
    | intro _
    | split
    | (refine sound_good ?_; dsimp only; refine good_sound ?_)

/-- A fold of an operation that leaves the boot record. -/
theorem boot_foldl {β : Type} {f : State → β → State} (hf : ∀ t x, (f t x).boot = t.boot) (l : List β) (s : State) :
    (l.foldl f s).boot = s.boot := by
  induction l generalizing s with
  | nil => rfl
  | cons x l ih => rw [List.foldl_cons, ih, hf]
theorem noteTable_boot (s : State) (a n : Nat) : (noteTable s a n).boot = s.boot := by
  unfold noteTable
  split <;> simp
theorem recWrite_boot (s : State) (x o n v : Nat) : (recWrite s x o n v).boot = s.boot := by
  unfold recWrite portWrite
  split
  · rfl
  · simp
theorem noteRecord_boot (s : State) (x : Nat) : (noteRecord s x).boot = s.boot := by
  unfold noteRecord
  split <;> simp
theorem checkRule_boot (s : State) (l : Nat) : (checkRule s l).boot = s.boot := by
  unfold checkRule
  dsimp only
  split <;> split <;> simp [noteTable_boot]
theorem settleLayer_boot (s : State) (l : Nat) : (settleLayer s l).boot = s.boot := by
  unfold settleLayer
  dsimp only
  split <;> simp
theorem checkOutliers_boot (s : State) (x : Nat) : (checkOutliers s x).boot = s.boot := by
  unfold checkOutliers
  dsimp only
  split
  · rfl
  · split <;> split <;> simp [noteTable_boot]
theorem checkStream_boot (s : State) (x : Nat) : (checkStream s x).boot = s.boot := by
  unfold checkStream
  dsimp only
  split <;> split <;> (try split) <;> simp [checkOutliers_boot, resetSigma, recWrite_boot, noteRecord_boot, noteTable_boot]
theorem checkPassage_boot (s : State) (p : Nat) : (checkPassage s p).boot = s.boot := by
  have h : ∀ (l : List Nat) (c : State → Nat → Bool) (a : State → Nat → Nat) (n : Nat) (t : State),
      (l.foldl (fun t i => let u := noteTable t (a t i) n; if c u i then reservedRead u 2 (a u i) else u) t).boot = t.boot := by
    intro l c a n t
    refine boot_foldl (fun t x => ?_) l t
    dsimp only
    split <;> simp [noteTable_boot]
  have one : ∀ (t : State) (c : Bool) (a : Nat), (if c = true then reservedRead t 2 a else t).boot = t.boot := by
    intro t c a
    split <;> simp
  unfold checkPassage
  dsimp only
  split
  · rfl
  · have e : ∀ (t : State), (if passageOk t p = true then t else raise t 2 Ev.passageInvalid (pack [(12, p)])).boot = t.boot := by
      intro t
      split <;> simp
    refine (e _).trans ?_
    refine (h _ (fun u i => (rentry u p i).reserved) (fun _ i => (pentry s p).res + 32 * i) 32 _).trans ?_
    refine (h _ (fun u i => (ctxOf u p i).reserved) (fun u i => ctxAddr u p i) 64 _).trans ?_
    exact (one _ _ _).trans (noteTable_boot _ _ _)
theorem firstAttempt_boot (s : State) : (firstAttempt s).boot = s.boot := by
  unfold firstAttempt
  dsimp only
  rw [boot_foldl checkPassage_boot, boot_foldl checkStream_boot, boot_foldl settleLayer_boot, boot_foldl checkRule_boot]
  rfl
theorem noteEntries_boot (s : State) (a w n l : Nat) : (noteEntries s a w n l).boot = s.boot := by
  unfold noteEntries
  split
  · rfl
  · exact boot_foldl (fun _ _ => noteTable_boot _ _ _) _ _
theorem noteRgroup_boot (s : State) (g : Nat) : (noteRgroup s g).boot = s.boot := by
  have one : ∀ (t : State) (c : Bool) (a : Nat), (if c = true then reservedRead t 5 a else t).boot = t.boot := by
    intro t c a
    split <;> simp
  unfold noteRgroup
  dsimp only
  split
  · rfl
  · exact (one _ _ _).trans ((one _ _ _).trans ((one _ _ _).trans ((noteEntries_boot _ _ _ _ _).trans ((noteEntries_boot _ _ _ _ _).trans (noteTable_boot _ _ _)))))
theorem releaseSlot_boot (s : State) (k : Nat) : (releaseSlot s k).boot = s.boot := by
  unfold releaseSlot
  dsimp only
  repeat' split
  all_goals rfl
theorem takeFree_boot (s : State) (k p : Nat) (a b c : Bool) : (takeFree s k p a b c).boot = s.boot := by
  unfold takeFree
  dsimp only
  repeat' split
  all_goals rfl
theorem dropBuffers_boot (s : State) : (dropBuffers s).boot = s.boot := boot_foldl (fun _ _ => releaseSlot_boot _ _) _ _
theorem takeBuffers_boot (s : State) : (takeBuffers s).boot = s.boot :=
  boot_foldl (fun _ _ => by split; rfl; exact takeFree_boot _ _ _ _ _ _) _ _
theorem readGroups_boot (s : State) : (readGroups s).boot = s.boot := by
  unfold readGroups
  dsimp only
  rw [takeBuffers_boot, dropBuffers_boot, boot_foldl (fun _ _ => by simp), boot_foldl noteRgroup_boot]
/-- A step starts only in stage 0xA, and that is what `Sound` asks of a running scheduler. -/
theorem runSet_sound {s : State} (h_s : Sound s) : Sound (runSet s) := by
  unfold runSet
  dsimp only
  have h_s := dueAbort_sound h_s
  revert h_s
  generalize dueAbort s = s
  intro h_s
  split
  · exact h_s
  · split
    · exact raise_sound h_s
    · rename_i h
      have h10 : s.boot.stage = 10 := by
        simp only [Bool.or_eq_true, decide_eq_true_eq, not_or] at h
        exact Decidable.not_not.1 h.1.1.1
      have key : ∀ t : State, Sound t → t.boot.stage = 10 → ∀ p g, Sound { t with psc := p, gov := g } := by
        intro t ht h10 p g
        exact ⟨ht.1, ht.2.1, ht.2.2.1, ht.2.2.2.1, fun _ => h10, ht.2.2.2.2.2⟩
      refine refresh_sound (startRamp_sound (openMailbox_sound ?_))
      have hg : Sound (if s.psc.repeats = true then s else readGroups (firstAttempt s)) ∧
          (if s.psc.repeats = true then s else readGroups (firstAttempt s)).boot.stage = 10 := by
        split
        · exact ⟨h_s, h10⟩
        · exact ⟨readGroups_sound (firstAttempt_sound h_s), by rw [readGroups_boot, firstAttempt_boot]; exact h10⟩
      exact key _ hg.1 hg.2 _ _

theorem updateWindow_sound {s : State} {p : Nat} (h_s : Sound s) :
    Sound (updateWindow s p) := by
  unfold updateWindow
  try dsimp only
  repeat' first
    | with_reducible assumption
    | with_reducible refine sound_foldl ?_ _ ?_
    | with_reducible refine sound_foldl_on Prod.fst ?_ _ ?_
    | with_reducible refine returnPrefetch_sound ?_
    | with_reducible refine prefetchWindow_sound ?_
    | intro _
    | split
    | (refine sound_good ?_; dsimp only; refine good_sound ?_)

theorem predictVariant_sound {s : State} (h_s : Sound s) :
    Sound (predictVariant s) := by
  unfold predictVariant
  try dsimp only
  repeat' first
    | with_reducible assumption
    | intro _
    | split
    | (refine sound_good ?_; dsimp only; refine good_sound ?_)

theorem beginPassage_sound {s : State} {p : Nat} (h_s : Sound s) :
    Sound (beginPassage s p) := by
  unfold beginPassage
  try dsimp only
  repeat' first
    | with_reducible assumption
    | with_reducible refine setPassage_sound ?_
    | with_reducible refine updateWindow_sound ?_
    | with_reducible refine predictVariant_sound ?_
    | with_reducible refine latchAclk_sound ?_
    | with_reducible refine placeSpares_sound ?_
    | intro _
    | split
    | (refine sound_good ?_; dsimp only; refine good_sound ?_)

theorem passageSelect_sound {s : State} (h_s : Sound s) :
    Sound (passageSelect s) := by
  unfold passageSelect
  try dsimp only
  repeat' first
    | with_reducible assumption
    | with_reducible refine refresh_sound ?_
    | with_reducible refine beginPassage_sound ?_
    | with_reducible refine dueAbort_sound ?_
    | intro _
    | split
    | (refine sound_good ?_; dsimp only; refine good_sound ?_)

theorem swapRegion_sound {s : State} {v : Nat} {a : Nat} {g : Nat} (h_s : Sound s) :
    Sound (swapRegion s v a g) := by
  unfold swapRegion
  try dsimp only
  repeat' first
    | with_reducible assumption
    | with_reducible refine freshRows_sound ?_
    | intro _
    | split
    | (refine sound_good ?_; dsimp only; refine good_sound ?_)

theorem unloadArray_sound {s : State} {a : Nat} (h_s : Sound s) :
    Sound (unloadArray s a) := by
  unfold unloadArray
  try dsimp only
  repeat' first
    | with_reducible assumption
    | with_reducible refine setArray_sound ?_
    | intro _
    | split
    | (refine sound_good ?_; dsimp only; refine good_sound ?_)

theorem swapVariant_sound {s : State} {v : Nat} (h_s : Sound s) :
    Sound (swapVariant s v) := by
  unfold swapVariant
  try dsimp only
  repeat' first
    | with_reducible assumption
    | with_reducible refine sound_foldl ?_ _ ?_
    | with_reducible refine predictVariant_sound ?_
    | with_reducible refine swapRegion_sound ?_
    | with_reducible refine unloadArray_sound ?_
    | with_reducible refine dropBuffers_sound ?_
    | with_reducible refine takeBuffers_sound ?_
    | intro _
    | split
    | (refine sound_good ?_; dsimp only; refine good_sound ?_)

theorem variantSwap_sound {s : State} (h_s : Sound s) :
    Sound (variantSwap s) := by
  unfold variantSwap
  try dsimp only
  repeat' first
    | with_reducible assumption
    | with_reducible refine swapVariant_sound ?_
    | intro _
    | split
    | (refine sound_good ?_; dsimp only; refine good_sound ?_)

theorem afterEnd_sound {s : State} (h_s : Sound s) :
    Sound (afterEnd s) := by
  unfold afterEnd
  try dsimp only
  repeat' first
    | with_reducible assumption
    | with_reducible refine tryCommit_sound ?_
    | with_reducible refine sweepSlots_sound ?_
    | with_reducible refine refresh_sound ?_
    | with_reducible refine tryBoundary_sound ?_
    | intro _
    | split
    | (refine sound_good ?_; dsimp only; refine good_sound ?_)

theorem returnGroups_sound {s : State} {p : Nat} (h_s : Sound s) :
    Sound (returnGroups s p) := by
  unfold returnGroups
  try dsimp only
  repeat' first
    | with_reducible assumption
    | with_reducible refine releaseOwners_sound ?_
    | intro _
    | split
    | (refine sound_good ?_; dsimp only; refine good_sound ?_)

theorem passageComplete_sound {s : State} {p : Nat} (h_s : Sound s) :
    Sound (passageComplete s p) := by
  unfold passageComplete
  try dsimp only
  repeat' first
    | with_reducible assumption
    | with_reducible refine setPassage_sound ?_
    | with_reducible refine afterEnd_sound ?_
    | with_reducible refine returnGroups_sound ?_
    | intro _
    | split
    | (refine sound_good ?_; dsimp only; refine good_sound ?_)

theorem commitShadows_sound {s : State} {p : Nat} (h_s : Sound s) :
    Sound (commitShadows s p) := by
  unfold commitShadows
  try dsimp only
  repeat' first
    | with_reducible assumption
    | with_reducible refine sound_foldl ?_ _ ?_
    | with_reducible refine setGroup_sound ?_
    | intro _
    | split
    | (refine sound_good ?_; dsimp only; refine good_sound ?_)

theorem undoShadow_sound {s : State} {k : Nat} (h_s : Sound s) :
    Sound (undoShadow s k) := by
  unfold undoShadow
  try dsimp only
  repeat' first
    | with_reducible assumption
    | with_reducible refine setGroup_sound ?_
    | with_reducible refine freshRows_sound ?_
    | intro _
    | split
    | (refine sound_good ?_; dsimp only; refine good_sound ?_)

theorem undoShadows_sound {s : State} {p : Nat} (h_s : Sound s) :
    Sound (undoShadows s p) := by
  unfold undoShadows
  try dsimp only
  repeat' first
    | with_reducible assumption
    | with_reducible refine sound_foldl ?_ _ ?_
    | with_reducible refine undoShadow_sound ?_
    | intro _
    | split
    | (refine sound_good ?_; dsimp only; refine good_sound ?_)

theorem resolvePassage_sound {s : State} {cond : Nat} {outcome : Bool} {p : Nat} (h_s : Sound s) :
    Sound (resolvePassage s cond outcome p) := by
  unfold resolvePassage
  try dsimp only
  repeat' first
    | with_reducible assumption
    | with_reducible refine settleReads_sound ?_
    | with_reducible refine setPassage_sound ?_
    | with_reducible refine dropFalse_sound ?_
    | with_reducible refine commitShadows_sound ?_
    | with_reducible refine stopArrays_sound ?_
    | intro _
    | split
    | (refine sound_good ?_; dsimp only; refine good_sound ?_)

theorem resolveCond_sound {s : State} {cond : Nat} {outcome : Bool} (h_s : Sound s) :
    Sound (resolveCond s cond outcome) := by
  unfold resolveCond
  try dsimp only
  repeat' first
    | with_reducible assumption
    | with_reducible refine sound_foldl ?_ _ ?_
    | with_reducible refine raiseOpen_sound ?_
    | with_reducible refine afterEnd_sound ?_
    | with_reducible refine resolvePassage_sound ?_
    | intro _
    | split
    | (refine sound_good ?_; dsimp only; refine good_sound ?_)

theorem pscResolve_sound {s : State} {req : Req} {cond : Nat} {outcome : Bool} (h_s : Sound s) :
    Sound (pscResolve s req cond outcome) := by
  unfold pscResolve
  try dsimp only
  repeat' first
    | with_reducible assumption
    | with_reducible refine reservedWrite_sound ?_
    | with_reducible refine resolveCond_sound ?_
    | intro _
    | split
    | (refine sound_good ?_; dsimp only; refine good_sound ?_)

theorem clearStop_sound {p : Nat} {s : State} {a : Nat} (h_s : Sound s) :
    Sound (clearStop p s a) := by
  unfold clearStop
  try dsimp only
  repeat' first
    | with_reducible assumption
    | with_reducible refine setArray_sound ?_
    | intro _
    | split
    | (refine sound_good ?_; dsimp only; refine good_sound ?_)

theorem clearStops_sound {s : State} {p : Nat} (h_s : Sound s) :
    Sound (clearStops s p) := by
  unfold clearStops
  try dsimp only
  repeat' first
    | with_reducible assumption
    | with_reducible refine sound_foldl ?_ _ ?_
    | with_reducible refine clearStop_sound ?_
    | intro _
    | split
    | (refine sound_good ?_; dsimp only; refine good_sound ?_)

theorem undoComplete_sound {s : State} {p : Nat} (h_s : Sound s) :
    Sound (undoComplete s p) := by
  unfold undoComplete
  try dsimp only
  repeat' first
    | with_reducible assumption
    | with_reducible refine setPassage_sound ?_
    | with_reducible refine raiseOpen_sound ?_
    | with_reducible refine afterEnd_sound ?_
    | with_reducible refine returnGroups_sound ?_
    | with_reducible refine undoShadows_sound ?_
    | with_reducible refine clearStops_sound ?_
    | intro _
    | split
    | (refine sound_good ?_; dsimp only; refine good_sound ?_)

theorem preempt_sound {s : State} {q : Nat} (h_s : Sound s) :
    Sound (preempt s q) := by
  unfold preempt
  try dsimp only
  repeat' first
    | with_reducible assumption
    | with_reducible refine raise_sound ?_
    | with_reducible refine refresh_sound ?_
    | with_reducible refine stopArrays_sound ?_
    | intro _
    | split
    | (refine sound_good ?_; dsimp only; refine good_sound ?_)

theorem suspendArray_sound {s : State} {a : Nat} (h_s : Sound s) :
    Sound (suspendArray s a) := by
  unfold suspendArray
  try dsimp only
  repeat' first
    | with_reducible assumption
    | with_reducible refine setArray_sound ?_
    | intro _
    | split
    | (refine sound_good ?_; dsimp only; refine good_sound ?_)

theorem passageSuspend_sound {s : State} (h_s : Sound s) :
    Sound (passageSuspend s) := by
  unfold passageSuspend
  try dsimp only
  repeat' first
    | with_reducible assumption
    | with_reducible refine sound_foldl ?_ _ ?_
    | with_reducible refine setPassage_sound ?_
    | with_reducible refine raise_sound ?_
    | with_reducible refine beginPassage_sound ?_
    | with_reducible refine suspendArray_sound ?_
    | intro _
    | split
    | (refine sound_good ?_; dsimp only; refine good_sound ?_)

theorem reissue_sound {s : State} {a : Nat} {k : Susp} (h_s : Sound s) :
    Sound (reissue s a k) := by
  unfold reissue
  try dsimp only
  repeat' first
    | with_reducible assumption
    | with_reducible refine sound_foldl ?_ _ ?_
    | with_reducible refine setArray_sound ?_
    | with_reducible refine setGroup_sound ?_
    | intro _
    | split
    | (refine sound_good ?_; dsimp only; refine good_sound ?_)

theorem resumeArray_sound {s : State} {a : Nat} (h_s : Sound s) :
    Sound (resumeArray s a) := by
  unfold resumeArray
  try dsimp only
  repeat' first
    | with_reducible assumption
    | with_reducible refine setArray_sound ?_
    | with_reducible refine reissue_sound ?_
    | intro _
    | split
    | (refine sound_good ?_; dsimp only; refine good_sound ?_)

theorem resumeSuspended_sound {s : State} {a : Nat} (h_s : Sound s) :
    Sound (resumeSuspended s a) := by
  unfold resumeSuspended
  try dsimp only
  repeat' first
    | with_reducible assumption
    | with_reducible refine setArray_sound ?_
    | with_reducible refine reissue_sound ?_
    | intro _
    | split
    | (refine sound_good ?_; dsimp only; refine good_sound ?_)

theorem passageResume_sound {s : State} (h_s : Sound s) :
    Sound (passageResume s) := by
  unfold passageResume
  try dsimp only
  repeat' first
    | with_reducible assumption
    | with_reducible refine sound_foldl ?_ _ ?_
    | with_reducible refine setPassage_sound ?_
    | with_reducible refine raise_sound ?_
    | with_reducible refine resumeSuspended_sound ?_
    | intro _
    | split
    | (refine sound_good ?_; dsimp only; refine good_sound ?_)

theorem govStateWrite_sound {s : State} {req : Req} {w : Nat} {v : Nat} (h_s : Sound s) :
    Sound (govStateWrite s req w v) := by
  unfold govStateWrite
  try dsimp only
  repeat' first
    | with_reducible assumption
    | with_reducible refine setLayer_sound ?_
    | with_reducible refine raiseOpen_sound ?_
    | with_reducible refine reservedWrite_sound ?_
    | intro _
    | split
    | (refine sound_good ?_; dsimp only; refine good_sound ?_)

end Sys2Proof.Laws
end

