-- ==== Sys2Proof/Laws/SoundArrays.lean ====
section
/-! SUPPORT. The operations of Machine/Arrays.lean keep `Sound`. -/

namespace Sys2Proof.Laws

open Sys2Proof.Machine Sys2Proof.Safety

theorem noteDisabled_sound {s : State} {p : Nat} {a : Nat} (h_s : Sound s) :
    Sound (noteDisabled s p a) := by
  unfold noteDisabled
  try dsimp only
  repeat' first
    | with_reducible assumption
    | with_reducible refine notePassage_sound ?_
    | intro _
    | split
    | (refine sound_good ?_; dsimp only; refine good_sound ?_)

theorem endPass_sound {s : State} {a : Nat} (h_s : Sound s) :
    Sound (endPass s a) := by
  unfold endPass
  try dsimp only
  repeat' first
    | with_reducible assumption
    | with_reducible refine setArray_sound ?_
    | with_reducible refine finishOp_sound ?_
    | intro _
    | split
    | (refine sound_good ?_; dsimp only; refine good_sound ?_)

theorem doLoad_sound {s : State} {sl : Slot} (h_s : Sound s) :
    Sound (doLoad s sl) := by
  unfold doLoad
  try dsimp only
  repeat' first
    | with_reducible assumption
    | with_reducible refine tallyRead_sound ?_
    | with_reducible refine noteContext_sound ?_
    | with_reducible refine noteStaging_sound ?_
    | with_reducible refine noteDisabled_sound ?_
    | with_reducible refine endPass_sound ?_
    | with_reducible refine bumpFree_sound ?_
    | with_reducible refine setArray_sound ?_
    | with_reducible refine reservedRead_sound ?_
    | with_reducible refine addOp_sound ?_
    | with_reducible refine noteStream_sound ?_
    | with_reducible refine noteMask_sound ?_
    | intro _
    | split
    | (refine sound_good ?_; dsimp only; refine good_sound ?_)

theorem loadComplete_sound {s : State} {a : Nat} (h_s : Sound s) :
    Sound (loadComplete s a) := by
  unfold loadComplete
  try dsimp only
  repeat' first
    | with_reducible assumption
    | with_reducible refine setArray_sound ?_
    | with_reducible refine finishOp_sound ?_
    | intro _
    | split
    | (refine sound_good ?_; dsimp only; refine good_sound ?_)

theorem feederFill_sound {s : State} {a : Nat} {m : Nat} (h_s : Sound s) :
    Sound (feederFill s a m) := by
  unfold feederFill
  try dsimp only
  repeat' first
    | with_reducible assumption
    | with_reducible refine setArray_sound ?_
    | intro _
    | split
    | (refine sound_good ?_; dsimp only; refine good_sound ?_)

theorem swapTile_sound {s : State} {a : Nat} (h_s : Sound s) :
    Sound (swapTile s a) := by
  unfold swapTile
  try dsimp only
  repeat' first
    | with_reducible assumption
    | with_reducible refine setArray_sound ?_
    | intro _
    | split
    | (refine sound_good ?_; dsimp only; refine good_sound ?_)

theorem releaseRetained_sound {s : State} {a : Nat} (h_s : Sound s) :
    Sound (releaseRetained s a) := by
  unfold releaseRetained
  try dsimp only
  repeat' first
    | with_reducible assumption
    | with_reducible refine setArray_sound ?_
    | intro _
    | split
    | (refine sound_good ?_; dsimp only; refine good_sound ?_)

theorem aimExtents_sound {s : State} {a : Nat} {q : Pass} (h_s : Sound s) :
    Sound (aimExtents s a q) := by
  unfold aimExtents
  try dsimp only
  repeat' first
    | with_reducible assumption
    | with_reducible refine setGroup_sound ?_
    | intro _
    | split
    | (refine sound_good ?_; dsimp only; refine good_sound ?_)

theorem aimBurst_sound {s : State} {a : Nat} {p : Nat} {q : Pass} {chunks : Nat} (h_s : Sound s) :
    Sound (aimBurst s a p q chunks) := by
  unfold aimBurst
  try dsimp only
  repeat' first
    | with_reducible assumption
    | with_reducible refine setGroup_sound ?_
    | with_reducible refine takeOwner_sound ?_
    | intro _
    | split
    | (refine sound_good ?_; dsimp only; refine good_sound ?_)

theorem countPass_sound {s : State} {k : Nat} {pass : Nat} {segs : Nat} (h_s : Sound s) :
    Sound (countPass s k pass segs) := by
  unfold countPass
  try dsimp only
  repeat' first
    | with_reducible assumption
    | with_reducible refine setGroup_sound ?_
    | with_reducible refine raiseOpen_sound ?_
    | intro _
    | split
    | (refine sound_good ?_; dsimp only; refine good_sound ?_)

theorem cutLate_sound {s : State} {a : Nat} (h_s : Sound s) :
    Sound (cutLate s a) := by
  unfold cutLate
  try dsimp only
  repeat' first
    | with_reducible assumption
    | with_reducible refine cutBurst_sound ?_
    | intro _
    | split
    | (refine sound_good ?_; dsimp only; refine good_sound ?_)

theorem noteFeeder_sound {s : State} {a : Nat} {m : Nat} {rows : List FeedRow} (h_s : Sound s) :
    Sound (noteFeeder s a m rows) := by
  unfold noteFeeder
  try dsimp only
  repeat' first
    | with_reducible assumption
    | with_reducible refine raise_sound ?_
    | intro _
    | split
    | (refine sound_good ?_; dsimp only; refine good_sound ?_)

theorem issueBurst_sound {s : State} {sl : Slot} {q : Pass} (h_s : Sound s) :
    Sound (issueBurst s sl q) := by
  unfold issueBurst
  try dsimp only
  repeat' first
    | with_reducible assumption
    | with_reducible refine tallyRead_sound ?_
    | with_reducible refine aimExtents_sound ?_
    | with_reducible refine aimBurst_sound ?_
    | with_reducible refine cutLate_sound ?_
    | with_reducible refine noteFeeder_sound ?_
    | with_reducible refine setArray_sound ?_
    | with_reducible refine reservedRead_sound ?_
    | with_reducible refine addOp_sound ?_
    | with_reducible refine noteMask_sound ?_
    | intro _
    | split
    | (refine sound_good ?_; dsimp only; refine good_sound ?_)

theorem doBurst_sound {s : State} {sl : Slot} (h_s : Sound s) :
    Sound (doBurst s sl) := by
  unfold doBurst
  try dsimp only
  repeat' first
    | with_reducible assumption
    | with_reducible refine noteContext_sound ?_
    | with_reducible refine noteDisabled_sound ?_
    | with_reducible refine swapTile_sound ?_
    | with_reducible refine issueBurst_sound ?_
    | with_reducible refine raiseOpenPassage_sound ?_
    | intro _
    | split
    | (refine sound_good ?_; dsimp only; refine good_sound ?_)

theorem dropChunk_sound {s : State} {c : Chunk} (h_s : Sound s) :
    Sound (dropChunk s c) := by
  unfold dropChunk
  try dsimp only
  repeat' first
    | with_reducible assumption
    | with_reducible refine releaseRetained_sound ?_
    | with_reducible refine dropInflight_sound ?_
    | with_reducible refine finishBurst_sound ?_
    | intro _
    | split
    | (refine sound_good ?_; dsimp only; refine good_sound ?_)

theorem setChunk_sound {s : State} {c : Chunk} {d : Chunk} (h_s : Sound s) :
    Sound (setChunk s c d) := by
  unfold setChunk
  try dsimp only
  repeat' first
    | with_reducible assumption
    | intro _
    | split
    | (refine sound_good ?_; dsimp only; refine good_sound ?_)

theorem saveChunk_sound {s : State} {c : Chunk} (h_s : Sound s) :
    Sound (saveChunk s c) := by
  unfold saveChunk
  try dsimp only
  repeat' first
    | with_reducible assumption
    | with_reducible refine dropChunk_sound ?_
    | with_reducible refine setArray_sound ?_
    | intro _
    | split
    | (refine sound_good ?_; dsimp only; refine good_sound ?_)

theorem residueFail_sound {s : State} {c : Chunk} (h_s : Sound s) :
    Sound (residueFail s c) := by
  unfold residueFail
  try dsimp only
  repeat' first
    | with_reducible assumption
    | with_reducible refine columnFaults_sound ?_
    | with_reducible refine dropChunk_sound ?_
    | with_reducible refine setChunk_sound ?_
    | with_reducible refine saveChunk_sound ?_
    | with_reducible refine raise_sound ?_
    | with_reducible refine uncorrectable_sound ?_
    | intro _
    | split
    | (refine sound_good ?_; dsimp only; refine good_sound ?_)

theorem residueCheck_sound {s : State} {id : ChunkId} {err : Int} (h_s : Sound s) :
    Sound (residueCheck s id err) := by
  unfold residueCheck
  try dsimp only
  repeat' first
    | with_reducible assumption
    | with_reducible refine releaseRetained_sound ?_
    | with_reducible refine setChunk_sound ?_
    | with_reducible refine residueFail_sound ?_
    | intro _
    | split
    | (refine sound_good ?_; dsimp only; refine good_sound ?_)

theorem rowReplay_sound {s : State} {a : Nat} (h_s : Sound s) :
    Sound (rowReplay s a) := by
  unfold rowReplay
  try dsimp only
  repeat' first
    | with_reducible assumption
    | with_reducible refine sound_foldl ?_ _ ?_
    | with_reducible refine saveChunk_sound ?_
    | with_reducible refine heldAclk_sound ?_
    | intro _
    | split
    | (refine sound_good ?_; dsimp only; refine good_sound ?_)

theorem countLoss_sound {s : State} {k : Nat} {sat : Nat} {floor : Nat} (h_s : Sound s) :
    Sound (countLoss s k sat floor) := by
  unfold countLoss
  try dsimp only
  repeat' first
    | with_reducible assumption
    | with_reducible refine setGroup_sound ?_
    | with_reducible refine countLife_sound ?_
    | intro _
    | split
    | (refine sound_good ?_; dsimp only; refine good_sound ?_)

theorem raiseSaturate_sound {s : State} {k : Nat} {origin : Nat} (h_s : Sound s) :
    Sound (raiseSaturate s k origin) := by
  unfold raiseSaturate
  try dsimp only
  repeat' first
    | with_reducible assumption
    | with_reducible refine raise_sound ?_
    | intro _
    | split
    | (refine sound_good ?_; dsimp only; refine good_sound ?_)

theorem countPromoted_sound {s : State} {a : Nat} {g : Nat} {pass : Nat} {origin : Nat} {r : Promoted} (h_s : Sound s) :
    Sound (countPromoted s a g pass origin r) := by
  unfold countPromoted
  try dsimp only
  repeat' first
    | with_reducible assumption
    | with_reducible refine countLoss_sound ?_
    | with_reducible refine raiseSaturate_sound ?_
    | intro _
    | split
    | (refine sound_good ?_; dsimp only; refine good_sound ?_)

theorem putTotal_sound {s : State} {k : Nat} {grp : Nat} {v : Int} (h_s : Sound s) :
    Sound (putTotal s k grp v) := by
  unfold putTotal
  try dsimp only
  repeat' first
    | with_reducible assumption
    | with_reducible refine bumpFree_sound ?_
    | with_reducible refine setTotal_sound ?_
    | intro _
    | split
    | (refine sound_good ?_; dsimp only; refine good_sound ?_)

theorem promoteChunk_sound {s : State} {c : Chunk} (h_s : Sound s) :
    Sound (promoteChunk s c) := by
  unfold promoteChunk
  try dsimp only
  repeat' first
    | with_reducible assumption
    | with_reducible refine countPass_sound ?_
    | with_reducible refine dropChunk_sound ?_
    | with_reducible refine countPromoted_sound ?_
    | with_reducible refine putTotal_sound ?_
    | with_reducible refine setGroup_sound ?_
    | with_reducible refine raiseOpen_sound ?_
    | with_reducible refine raiseOpenPassage_sound ?_
    | intro _
    | split
    | (refine sound_good ?_; dsimp only; refine good_sound ?_)

theorem chunkPromote_sound {s : State} {id : ChunkId} (h_s : Sound s) :
    Sound (chunkPromote s id) := by
  unfold chunkPromote
  try dsimp only
  repeat' first
    | with_reducible assumption
    | with_reducible refine promoteChunk_sound ?_
    | intro _
    | split
    | (refine sound_good ?_; dsimp only; refine good_sound ?_)

theorem noteCorrupt_sound {s : State} {t : State} {a : Nat} {corrupt : Option (BitVec 17)} (h_s : Sound s) (h_t : Sound t) :
    Sound (noteCorrupt s t a corrupt) := by
  unfold noteCorrupt
  try dsimp only
  repeat' first
    | with_reducible assumption
    | with_reducible refine uncorrectable_sound ?_
    | intro _
    | split
    | (refine sound_good ?_; dsimp only; refine good_sound ?_)

end Sys2Proof.Laws
end

