-- ==== Sys2Proof/Laws/SoundAttention.lean ====
section
/-! SUPPORT. The operations of Machine/Attention.lean keep `Sound`. -/

namespace Sys2Proof.Laws

open Sys2Proof.Machine Sys2Proof.Safety

theorem passGrace_sound {s : State} (h_s : Sound s) :
    Sound (passGrace s) := by
  unfold passGrace
  try dsimp only
  repeat' first
    | with_reducible assumption
    | intro _
    | split
    | (refine sound_good ?_; dsimp only; refine good_sound ?_)

theorem sampleIdle_sound {s : State} (h_s : Sound s) :
    Sound (sampleIdle s) := by
  unfold sampleIdle
  try dsimp only
  repeat' first
    | with_reducible assumption
    | with_reducible refine bumpFree_sound ?_
    | intro _
    | split
    | (refine sound_good ?_; dsimp only; refine good_sound ?_)

theorem arbitrate_sound {s : State} (h_s : Sound s) :
    Sound (arbitrate s) := by
  unfold arbitrate
  try dsimp only
  repeat' first
    | with_reducible assumption
    | with_reducible refine passGrace_sound ?_
    | intro _
    | split
    | (refine sound_good ?_; dsimp only; refine good_sound ?_)

theorem intAck_sound {s : State} {req : Req} {t : Nat} {n : Nat} (h_s : Sound s) :
    Sound (intAck s req t n) := by
  unfold intAck
  try dsimp only
  repeat' first
    | with_reducible assumption
    | with_reducible refine reservedWrite_sound ?_
    | intro _
    | split
    | (refine sound_good ?_; dsimp only; refine good_sound ?_)

theorem intEoi_sound {s : State} {req : Req} {t : Nat} {n : Nat} (h_s : Sound s) :
    Sound (intEoi s req t n) := by
  unfold intEoi
  try dsimp only
  repeat' first
    | with_reducible assumption
    | with_reducible refine reservedWrite_sound ?_
    | intro _
    | split
    | (refine sound_good ?_; dsimp only; refine good_sound ?_)

theorem intSwset_sound {s : State} {i : Nat} {bits : Word} (h_s : Sound s) :
    Sound (intSwset s i bits) := by
  unfold intSwset
  try dsimp only
  repeat' first
    | with_reducible assumption
    | with_reducible refine sampleLevels_sound ?_
    | intro _
    | split
    | (refine sound_good ?_; dsimp only; refine good_sound ?_)

theorem intSwclr_sound {s : State} {i : Nat} {bits : Word} (h_s : Sound s) :
    Sound (intSwclr s i bits) := by
  unfold intSwclr
  try dsimp only
  repeat' first
    | with_reducible assumption
    | with_reducible refine sampleLevels_sound ?_
    | intro _
    | split
    | (refine sound_good ?_; dsimp only; refine good_sound ?_)

theorem moderationExpire_sound {s : State} {t : Nat} (h_s : Sound s) :
    Sound (moderationExpire s t) := by
  unfold moderationExpire
  try dsimp only
  repeat' first
    | with_reducible assumption
    | intro _
    | split
    | (refine sound_good ?_; dsimp only; refine good_sound ?_)

theorem intSrcWrite_sound {s : State} {n : Nat} {v : Word} (h_s : Sound s) :
    Sound (intSrcWrite s n v) := by
  unfold intSrcWrite
  try dsimp only
  repeat' first
    | with_reducible assumption
    | with_reducible refine setLive_sound ?_
    | intro _
    | split
    | (refine sound_good ?_; dsimp only; refine good_sound ?_)

theorem logWrite_sound {s : State} {source : Nat} (h_s : Sound s) : Sound (logWrite s source) := by
  unfold logWrite
  split
  · exact h_s
  split
  · exact h_s
  · rename_i r rest hq
    dsimp only
    have hl : rest.length ≤ 8 := by
      have := sound_queue h_s source
      rw [hq] at this
      simp at this; omega
    have key : ∀ t : State, Sound t → Sound (sampleLevels (unitBack (if source < 28 then intPulse t source else t) 8 1)) := by
      intro t ht
      refine sampleLevels_sound (unitBack_sound ?_)
      split
      · exact intPulse_sound ht
      · exact ht
    have hb := h_s.2.2.2.2.2.2
    have mk : ∀ tl : Word, (s.evt.head + 1 - tl).toNat ≤ 8192 → Sound { s with evt := { s.evt with ring := s.evt.ring.put (s.evt.head.toNat % 8192) r, head := s.evt.head + 1, tail := tl, queues := s.evt.queues.put source rest } } := by
      intro tl htl
      exact ⟨h_s.1, h_s.2.1, h_s.2.2.1, h_s.2.2.2.1, h_s.2.2.2.2.1, queues_put h_s.2.2.2.2.2.1 source hl, htl⟩
    refine key _ ?_
    by_cases hf : (s.evt.head - s.evt.tail).toNat = 8192
    · simp only [hf, if_true]
      exact loseEvents_sound (mk _ (by bv_omega))
    · simp only [hf, if_false]
      exact mk _ (by bv_omega)

theorem evtLatch_sound {s : State} {req : Req} (h_s : Sound s) :
    Sound (evtLatch s req) := by
  unfold evtLatch
  try dsimp only
  repeat' first
    | with_reducible assumption
    | with_reducible refine setReq_sound ?_
    | intro _
    | split
    | (refine sound_good ?_; dsimp only; refine good_sound ?_)

theorem evtTail_sound {s : State} {req : Req} {v : Word} (h_s : Sound s) : Sound (evtTail s req v) := by
  unfold evtTail
  split
  · rename_i h
    exact sampleLevels_sound ⟨h_s.1, h_s.2.1, h_s.2.2.1, h_s.2.2.2.1, h_s.2.2.2.2.1, h_s.2.2.2.2.2.1, h⟩
  · exact reservedWrite_sound h_s

theorem tsEpoch_sound {s : State} (h_s : Sound s) :
    Sound (tsEpoch s) := by
  unfold tsEpoch
  try dsimp only
  repeat' first
    | with_reducible assumption
    | with_reducible refine raise_sound ?_
    | intro _
    | split
    | (refine sound_good ?_; dsimp only; refine good_sound ?_)

theorem mbxOpen_sound {s : State} {req : Req} {n : Nat} (h_s : Sound s) :
    Sound (mbxOpen s req n) := by
  unfold mbxOpen
  try dsimp only
  repeat' first
    | with_reducible assumption
    | with_reducible refine reservedWrite_sound ?_
    | with_reducible refine openMailbox_sound ?_
    | intro _
    | split
    | (refine sound_good ?_; dsimp only; refine good_sound ?_)

theorem mbxPost_sound {s : State} {req : Req} {n : Nat} (h_s : Sound s) :
    Sound (mbxPost s req n) := by
  unfold mbxPost
  try dsimp only
  repeat' first
    | with_reducible assumption
    | with_reducible refine reservedWrite_sound ?_
    | with_reducible refine postMailbox_sound ?_
    | intro _
    | split
    | (refine sound_good ?_; dsimp only; refine good_sound ?_)

theorem mbxSnap_sound {s : State} {req : Req} {n : Nat} (h_s : Sound s) :
    Sound (mbxSnap s req n) := by
  unfold mbxSnap
  try dsimp only
  repeat' first
    | with_reducible assumption
    | with_reducible refine setReq_sound ?_
    | intro _
    | split
    | (refine sound_good ?_; dsimp only; refine good_sound ?_)

end Sys2Proof.Laws
end

