-- ==== Sys2Proof/Laws/SoundGather.lean ====
section
/-! SUPPORT. The operations of Machine/Gather.lean keep `Sound`. -/

namespace Sys2Proof.Laws

open Sys2Proof.Machine Sys2Proof.Safety

theorem bufferFrame_sound {s : State} {f : Frame} (h_s : Sound s) :
    Sound (bufferFrame s f) := by
  unfold bufferFrame
  try dsimp only
  repeat' first
    | with_reducible assumption
    | with_reducible refine unitOut_sound ?_
    | intro _
    | split
    | (refine sound_good ?_; dsimp only; refine good_sound ?_)

theorem dropFrame_sound {s : State} {f : Frame} (h_s : Sound s) :
    Sound (dropFrame s f) := by
  unfold dropFrame
  try dsimp only
  repeat' first
    | with_reducible assumption
    | with_reducible refine unitBack_sound ?_
    | intro _
    | split
    | (refine sound_good ?_; dsimp only; refine good_sound ?_)

theorem putJob_sound {s : State} {kind : JobKind} {addr : Nat} {bytes : List Byte} (h_s : Sound s) :
    Sound (putJob s kind addr bytes) := by
  unfold putJob
  try dsimp only
  repeat' first
    | with_reducible assumption
    | intro _
    | split
    | (refine sound_good ?_; dsimp only; refine good_sound ?_)

theorem GTensor_putTile_sound {x : GTensor} {s : State} {key : Nat} {base : Nat} {order : Nat} {fmt : Nat} {t : Nat} {code : Nat → Nat → Nat} (h_s : Sound s) :
    Sound (GTensor.putTile x s key base order fmt t code) := by
  unfold GTensor.putTile
  try dsimp only
  repeat' first
    | with_reducible assumption
    | with_reducible refine sound_foldl ?_ _ ?_
    | with_reducible refine putJob_sound ?_
    | intro _
    | split
    | (refine sound_good ?_; dsimp only; refine good_sound ?_)

theorem writeGather_sound {s : State} {x : GTensor} {f : Frame} (h_s : Sound s) :
    Sound (writeGather s x f) := by
  unfold writeGather
  try dsimp only
  repeat' first
    | with_reducible assumption
    | with_reducible refine GTensor_putTile_sound ?_
    | with_reducible refine noteVer_sound ?_
    | with_reducible refine markUpdating_sound ?_
    | intro _
    | split
    | (refine sound_good ?_; dsimp only; refine good_sound ?_)

theorem keepGather_sound {s : State} {x : GTensor} {g : Nat} {i : Nat} {order : Nat} {fmt : Nat} {t : Nat} (h_s : Sound s) :
    Sound (keepGather s x g i order fmt t) := by
  unfold keepGather
  try dsimp only
  repeat' first
    | with_reducible assumption
    | with_reducible refine GTensor_putTile_sound ?_
    | with_reducible refine noteVer_sound ?_
    | with_reducible refine markUpdating_sound ?_
    | intro _
    | split
    | (refine sound_good ?_; dsimp only; refine good_sound ?_)

theorem settleFrames_sound {s : State} {op : Nat} (h_s : Sound s) :
    Sound (settleFrames s op) := by
  unfold settleFrames
  try dsimp only
  repeat' first
    | with_reducible assumption
    | with_reducible refine finishOp_sound ?_
    | intro _
    | split
    | (refine sound_good ?_; dsimp only; refine good_sound ?_)

theorem settleGathers_sound {s : State} (h_s : Sound s) :
    Sound (settleGathers s) := by
  unfold settleGathers
  try dsimp only
  repeat' first
    | with_reducible assumption
    | with_reducible refine sound_foldl ?_ _ ?_
    | with_reducible refine settleFrames_sound ?_
    | intro _
    | split
    | (refine sound_good ?_; dsimp only; refine good_sound ?_)

theorem gatherWritten_sound {s : State} {key : Nat} (h_s : Sound s) :
    Sound (gatherWritten s key) := by
  unfold gatherWritten
  try dsimp only
  repeat' first
    | with_reducible assumption
    | with_reducible refine dropFrame_sound ?_
    | with_reducible refine settleGathers_sound ?_
    | with_reducible refine tryBoundary_sound ?_
    | intro _
    | split
    | (refine sound_good ?_; dsimp only; refine good_sound ?_)

end Sys2Proof.Laws
end

