-- ==== Sys2Proof/Laws/SoundSumpOps.lean ====
section
/-! SUPPORT. The operations of Machine/SumpOps.lean keep `Sound`. -/

namespace Sys2Proof.Laws

open Sys2Proof.Machine Sys2Proof.Safety

theorem noteGroup_sound {s : State} {code : Nat} {a : Nat} (h_s : Sound s) :
    Sound (noteGroup s code a) := by
  unfold noteGroup
  try dsimp only
  repeat' first
    | with_reducible assumption
    | with_reducible refine raiseOpen_sound ?_
    | intro _
    | split
    | (refine sound_good ?_; dsimp only; refine good_sound ?_)

theorem holdGroup_sound {s : State} {k : Nat} {op : Nat} (h_s : Sound s) :
    Sound (holdGroup s k op) := by
  unfold holdGroup
  try dsimp only
  repeat' first
    | with_reducible assumption
    | with_reducible refine setGroup_sound ?_
    | intro _
    | split
    | (refine sound_good ?_; dsimp only; refine good_sound ?_)

theorem freeGroup_sound {s : State} {k : Nat} {op : Nat} (h_s : Sound s) :
    Sound (freeGroup s k op) := by
  unfold freeGroup
  try dsimp only
  repeat' first
    | with_reducible assumption
    | with_reducible refine setGroup_sound ?_
    | intro _
    | split
    | (refine sound_good ?_; dsimp only; refine good_sound ?_)

theorem closeGroup_sound {s : State} {k : Nat} (h_s : Sound s) :
    Sound (closeGroup s k) := by
  unfold closeGroup
  try dsimp only
  repeat' first
    | with_reducible assumption
    | with_reducible refine setGroup_sound ?_
    | with_reducible refine freshRows_sound ?_
    | intro _
    | split
    | (refine sound_good ?_; dsimp only; refine good_sound ?_)

theorem doOpen_sound {s : State} {sl : Slot} (h_s : Sound s) :
    Sound (doOpen s sl) := by
  unfold doOpen
  try dsimp only
  repeat' first
    | with_reducible assumption
    | with_reducible refine noteGroup_sound ?_
    | with_reducible refine setGroup_sound ?_
    | with_reducible refine takeOwner_sound ?_
    | with_reducible refine freshRows_sound ?_
    | intro _
    | split
    | (refine sound_good ?_; dsimp only; refine good_sound ?_)

theorem doClose_sound {s : State} {sl : Slot} (h_s : Sound s) :
    Sound (doClose s sl) := by
  unfold doClose
  try dsimp only
  repeat' first
    | with_reducible assumption
    | with_reducible refine noteGroup_sound ?_
    | with_reducible refine closeGroup_sound ?_
    | intro _
    | split
    | (refine sound_good ?_; dsimp only; refine good_sound ?_)

theorem doAnchor_sound {s : State} {sl : Slot} (h_s : Sound s) :
    Sound (doAnchor s sl) := by
  unfold doAnchor
  try dsimp only
  repeat' first
    | with_reducible assumption
    | with_reducible refine setGroup_sound ?_
    | with_reducible refine freshRows_sound ?_
    | intro _
    | split
    | (refine sound_good ?_; dsimp only; refine good_sound ?_)

theorem writeBound_sound {s : State} {slab : Nat} {part : Nat} {nib : Nat} {fmt : Nat} {code : Nat} {pad : Bool} (h_s : Sound s) :
    Sound (writeBound s slab part nib fmt code pad) := by
  unfold writeBound
  try dsimp only
  repeat' first
    | with_reducible assumption
    | with_reducible refine writeElem_sound ?_
    | intro _
    | split
    | (refine sound_good ?_; dsimp only; refine good_sound ?_)

theorem Drain_deliver_sound {s : State} {d : Drain} {width : Nat} {i : Nat} {c : Nat} {code : Nat} (h_s : Sound s) :
    Sound (Drain.deliver s d width i c code) := by
  unfold Drain.deliver
  try dsimp only
  repeat' first
    | with_reducible assumption
    | with_reducible refine writeBound_sound ?_
    | with_reducible refine setVe_sound ?_
    | intro _
    | split
    | (refine sound_good ?_; dsimp only; refine good_sound ?_)

theorem Drain_mergeTop_sound {s : State} {d : Drain} {i : Nat} {es : List (Nat × Nat)} (h_s : Sound s) :
    Sound (Drain.mergeTop s d i es) := by
  unfold Drain.mergeTop
  try dsimp only
  repeat' first
    | with_reducible assumption
    | with_reducible refine sound_foldl ?_ _ ?_
    | with_reducible refine sound_foldl_on Prod.fst ?_ _ ?_
    | with_reducible refine stWrite_sound ?_
    | intro _
    | split
    | (refine sound_good ?_; dsimp only; refine good_sound ?_)

theorem putOutlier_sound {s : State} {stream : Nat} {row : Nat} {pos : Nat} {y : Dy} (h_s : Sound s) :
    Sound (putOutlier s stream row pos y) := by
  unfold putOutlier
  try dsimp only
  repeat' first
    | with_reducible assumption
    | intro _
    | split
    | (refine sound_good ?_; dsimp only; refine good_sound ?_)

theorem Drain_putSide_sound {s : State} {d : Drain} {places : List (Nat × Nat)} (h_s : Sound s) :
    Sound (Drain.putSide s d places) := by
  unfold Drain.putSide
  try dsimp only
  repeat' first
    | with_reducible assumption
    | with_reducible refine sound_foldl ?_ _ ?_
    | with_reducible refine sound_foldl_on Prod.fst ?_ _ ?_
    | with_reducible refine putOutlier_sound ?_
    | intro _
    | split
    | (refine sound_good ?_; dsimp only; refine good_sound ?_)

theorem drainTile_sound {s : State} {d : Drain} {t : DrainTile} (h_s : Sound s) :
    Sound (drainTile s d t).1 := by
  unfold drainTile
  try dsimp only
  repeat' first
    | with_reducible assumption
    | with_reducible refine sound_foldl ?_ _ ?_
    | with_reducible refine sound_foldl_on Prod.fst ?_ _ ?_
    | with_reducible refine tally_sound ?_
    | with_reducible refine noteJit_sound ?_
    | with_reducible refine calibrate_sound ?_
    | with_reducible refine writeSide_sound ?_
    | with_reducible refine Drain_deliver_sound ?_
    | with_reducible refine Drain_mergeTop_sound ?_
    | with_reducible refine Drain_putSide_sound ?_
    | with_reducible refine setVe_sound ?_
    | intro _
    | split
    | (refine sound_good ?_; dsimp only; refine good_sound ?_)

theorem countSaturated_sound {s : State} {k : Nat} {n : Nat} (h_s : Sound s) :
    Sound (countSaturated s k n) := by
  unfold countSaturated
  try dsimp only
  repeat' first
    | with_reducible assumption
    | with_reducible refine countLoss_sound ?_
    | with_reducible refine raiseSaturate_sound ?_
    | intro _
    | split
    | (refine sound_good ?_; dsimp only; refine good_sound ?_)

theorem Drain_note_sound {s : State} {d : Drain} (h_s : Sound s) :
    Sound (Drain.note s d) := by
  unfold Drain.note
  try dsimp only
  repeat' first
    | with_reducible assumption
    | with_reducible refine tallyNonfin_sound ?_
    | with_reducible refine noteUndeclared_sound ?_
    | with_reducible refine noteStaging_sound ?_
    | with_reducible refine countSaturated_sound ?_
    | with_reducible refine raiseOpen_sound ?_
    | with_reducible refine noteStream_sound ?_
    | with_reducible refine noteMask_sound ?_
    | intro _
    | split
    | (refine sound_good ?_; dsimp only; refine good_sound ?_)

theorem drainTiles_sound {s : State} {d : Drain} {l : List DrainTile} (h_s : Sound s) : Sound (drainTiles s d l).1 := by
  induction l generalizing s with
  | nil => exact h_s
  | cons t ts ih => exact ih (drainTile_sound h_s)

theorem reserveFtq_sound {s : State} {d : Drain} {ts : List DrainTile} (h_s : Sound s) :
    Sound (reserveFtq s d ts) := by
  unfold reserveFtq
  try dsimp only
  repeat' first
    | with_reducible assumption
    | with_reducible refine setVe_sound ?_
    | with_reducible refine unitOut_sound ?_
    | intro _
    | split
    | (refine sound_good ?_; dsimp only; refine good_sound ?_)

theorem feedOne_sound {slab : Nat} {s : State} {o : Op} (h_s : Sound s) :
    Sound (feedOne slab s o) := by
  unfold feedOne
  try dsimp only
  repeat' first
    | with_reducible assumption
    | with_reducible refine setVe_sound ?_
    | with_reducible refine unitBack_sound ?_
    | with_reducible refine setOp_sound ?_
    | intro _
    | split
    | (refine sound_good ?_; dsimp only; refine good_sound ?_)

theorem feedRun_sound {s : State} {slab : Nat} (h_s : Sound s) :
    Sound (feedRun s slab) := by
  unfold feedRun
  try dsimp only
  repeat' first
    | with_reducible assumption
    | with_reducible refine sound_foldl ?_ _ ?_
    | with_reducible refine feedOne_sound ?_
    | intro _
    | split
    | (refine sound_good ?_; dsimp only; refine good_sound ?_)

theorem doDrain_sound {s : State} {sl : Slot} (h_s : Sound s) :
    Sound (doDrain s sl) := by
  unfold doDrain
  try dsimp only
  repeat' first
    | with_reducible assumption
    | with_reducible refine noteContext_sound ?_
    | with_reducible refine noteGroup_sound ?_
    | with_reducible refine holdGroup_sound ?_
    | with_reducible refine Drain_note_sound ?_
    | with_reducible refine drainTiles_sound ?_
    | with_reducible refine reserveFtq_sound ?_
    | with_reducible refine feedRun_sound ?_
    | with_reducible refine addOp_sound ?_
    | intro _
    | split
    | (refine sound_good ?_; dsimp only; refine good_sound ?_)

theorem drainTileCheck_sound {s : State} {op : Nat} {tile : Nat} (h_s : Sound s) :
    Sound (drainTileCheck s op tile) := by
  unfold drainTileCheck
  try dsimp only
  repeat' first
    | with_reducible assumption
    | with_reducible refine drainTile_sound ?_
    | with_reducible refine feedRun_sound ?_
    | with_reducible refine setOpKind_sound ?_
    | with_reducible refine setOp_sound ?_
    | intro _
    | split
    | (refine sound_good ?_; dsimp only; refine good_sound ?_)

theorem drainComplete_sound {s : State} {op : Nat} (h_s : Sound s) :
    Sound (drainComplete s op) := by
  unfold drainComplete
  try dsimp only
  repeat' first
    | with_reducible assumption
    | with_reducible refine freeGroup_sound ?_
    | with_reducible refine closeGroup_sound ?_
    | with_reducible refine finishOp_sound ?_
    | intro _
    | split
    | (refine sound_good ?_; dsimp only; refine good_sound ?_)

theorem doSpill_sound {s : State} {sl : Slot} (h_s : Sound s) :
    Sound (doSpill s sl) := by
  unfold doSpill
  try dsimp only
  repeat' first
    | with_reducible assumption
    | with_reducible refine sound_foldl ?_ _ ?_
    | with_reducible refine sound_foldl_on Prod.fst ?_ _ ?_
    | with_reducible refine noteContext_sound ?_
    | with_reducible refine noteStaging_sound ?_
    | with_reducible refine noteGroup_sound ?_
    | with_reducible refine holdGroup_sound ?_
    | with_reducible refine countSaturated_sound ?_
    | with_reducible refine stWrite_sound ?_
    | with_reducible refine addOp_sound ?_
    | intro _
    | split
    | (refine sound_good ?_; dsimp only; refine good_sound ?_)

theorem reloadElem_sound {s : State} {a : Nat} {grp : Nat} {uid : Nat} {ow : Bool} {bin : Bool} {slab : Nat} {cx : Ctx} {i : Nat} {c : Nat} (h_s : Sound s) :
    Sound (reloadElem s a grp uid ow bin slab cx i c) := by
  unfold reloadElem
  try dsimp only
  repeat' first
    | with_reducible assumption
    | with_reducible refine countPromoted_sound ?_
    | with_reducible refine putTotal_sound ?_
    | intro _
    | split
    | (refine sound_good ?_; dsimp only; refine good_sound ?_)

theorem doReload_sound {s : State} {sl : Slot} (h_s : Sound s) :
    Sound (doReload s sl) := by
  unfold doReload
  try dsimp only
  repeat' first
    | with_reducible assumption
    | with_reducible refine sound_foldl ?_ _ ?_
    | with_reducible refine sound_foldl_on Prod.fst ?_ _ ?_
    | with_reducible refine noteContext_sound ?_
    | with_reducible refine noteStaging_sound ?_
    | with_reducible refine noteGroup_sound ?_
    | with_reducible refine reloadElem_sound ?_
    | with_reducible refine setGroup_sound ?_
    | with_reducible refine addOp_sound ?_
    | intro _
    | split
    | (refine sound_good ?_; dsimp only; refine good_sound ?_)

theorem doCombine_sound {s : State} {sl : Slot} (h_s : Sound s) :
    Sound (doCombine s sl) := by
  unfold doCombine
  try dsimp only
  repeat' first
    | with_reducible assumption
    | with_reducible refine sound_foldl ?_ _ ?_
    | with_reducible refine sound_foldl_on Prod.fst ?_ _ ?_
    | with_reducible refine putTotal_sound ?_
    | with_reducible refine noteGroup_sound ?_
    | with_reducible refine holdGroup_sound ?_
    | with_reducible refine setGroup_sound ?_
    | with_reducible refine addOp_sound ?_
    | with_reducible refine noteMask_sound ?_
    | intro _
    | split
    | (refine sound_good ?_; dsimp only; refine good_sound ?_)

theorem spillComplete_sound {s : State} {op : Nat} (h_s : Sound s) :
    Sound (spillComplete s op) := by
  unfold spillComplete
  try dsimp only
  repeat' first
    | with_reducible assumption
    | with_reducible refine freeGroup_sound ?_
    | with_reducible refine finishOp_sound ?_
    | intro _
    | split
    | (refine sound_good ?_; dsimp only; refine good_sound ?_)

theorem reloadComplete_sound {s : State} {op : Nat} (h_s : Sound s) :
    Sound (reloadComplete s op) := by
  unfold reloadComplete
  try dsimp only
  repeat' first
    | with_reducible assumption
    | with_reducible refine finishOp_sound ?_
    | intro _
    | split
    | (refine sound_good ?_; dsimp only; refine good_sound ?_)

theorem combineComplete_sound {s : State} {op : Nat} (h_s : Sound s) :
    Sound (combineComplete s op) := by
  unfold combineComplete
  try dsimp only
  repeat' first
    | with_reducible assumption
    | with_reducible refine sound_foldl ?_ _ ?_
    | with_reducible refine freeGroup_sound ?_
    | with_reducible refine finishOp_sound ?_
    | intro _
    | split
    | (refine sound_good ?_; dsimp only; refine good_sound ?_)

end Sys2Proof.Laws
end

