-- ==== Sys2Proof/Laws/SoundVector.lean ====
section
/-! SUPPORT. The operations of Machine/Vector.lean keep `Sound`. -/

namespace Sys2Proof.Laws

open Sys2Proof.Machine Sys2Proof.Safety

theorem putCodes_sound {s : State} {r : VeRun} {c : Ctx} {fmt : Nat} {es : List (OutElem × Nat)} (h_s : Sound s) :
    Sound (putCodes s r c fmt es) := by
  unfold putCodes
  try dsimp only
  repeat' first
    | with_reducible assumption
    | with_reducible refine sound_foldl ?_ _ ?_
    | with_reducible refine sound_foldl_on Prod.fst ?_ _ ?_
    | with_reducible refine writeElem_sound ?_
    | intro _
    | dsimp only
    | split
    | (refine sound_good ?_; dsimp only; refine good_sound ?_)

theorem outTile_sound {s : State} {r : VeRun} {c : Ctx} {tile : Nat × Nat} {all : List OutElem} (h_s : Sound s) :
    Sound (outTile s r c tile all) := by
  unfold outTile
  try dsimp only
  repeat' first
    | with_reducible assumption
    | with_reducible refine sound_foldl ?_ _ ?_
    | with_reducible refine sound_foldl_on Prod.fst ?_ _ ?_
    | with_reducible refine tally_sound ?_
    | with_reducible refine noteJit_sound ?_
    | with_reducible refine writeSide_sound ?_
    | with_reducible refine putOutlier_sound ?_
    | with_reducible refine putCodes_sound ?_
    | intro _
    | dsimp only
    | split
    | (refine sound_good ?_; dsimp only; refine good_sound ?_)

theorem writeOut_sound {s : State} {r : VeRun} {es : List OutElem} (h_s : Sound s) :
    Sound (writeOut s r es).1 := by
  unfold writeOut
  try dsimp only
  repeat' first
    | with_reducible assumption
    | with_reducible refine sound_foldl ?_ _ ?_
    | with_reducible refine sound_foldl_on Prod.fst ?_ _ ?_
    | with_reducible refine noteUndeclared_sound ?_
    | with_reducible refine noteStream_sound ?_
    | with_reducible refine outTile_sound ?_
    | intro _
    | dsimp only
    | split
    | (refine sound_good ?_; dsimp only; refine good_sound ?_)

theorem noteReads_sound {s : State} {r : VeRun} {ins : List (List ReadOut)} (h_s : Sound s) :
    Sound (noteReads s r ins) := by
  unfold noteReads
  try dsimp only
  repeat' first
    | with_reducible assumption
    | with_reducible refine sound_foldl ?_ _ ?_
    | with_reducible refine tallyNonfin_sound ?_
    | with_reducible refine reservedRead_sound ?_
    | with_reducible refine noteStream_sound ?_
    | intro _
    | dsimp only
    | split
    | (refine sound_good ?_; dsimp only; refine good_sound ?_)

theorem notePorts_sound {s : State} {r : VeRun} (h_s : Sound s) :
    Sound (notePorts s r) := by
  unfold notePorts
  try dsimp only
  repeat' first
    | with_reducible assumption
    | with_reducible refine noteUndeclared_sound ?_
    | intro _
    | dsimp only
    | split
    | (refine sound_good ?_; dsimp only; refine good_sound ?_)

theorem runMap_sound {s : State} {r : VeRun} (h_s : Sound s) :
    Sound (runMap s r).st := by
  unfold runMap
  try dsimp only
  repeat' first
    | with_reducible assumption
    | with_reducible refine writeOut_sound ?_
    | with_reducible refine noteReads_sound ?_
    | with_reducible refine notePorts_sound ?_
    | intro _
    | dsimp only
    | split
    | (refine sound_good ?_; dsimp only; refine good_sound ?_)

theorem runReduce_sound {s : State} {r : VeRun} (h_s : Sound s) :
    Sound (runReduce s r).st := by
  unfold runReduce
  try dsimp only
  repeat' first
    | with_reducible assumption
    | with_reducible refine writeOut_sound ?_
    | with_reducible refine noteReads_sound ?_
    | with_reducible refine notePorts_sound ?_
    | intro _
    | dsimp only
    | split
    | (refine sound_good ?_; dsimp only; refine good_sound ?_)

theorem writeBytesIn_sound {s : State} {slab : Nat} {part : Nat} {off : Nat} {bs : List Byte} (h_s : Sound s) :
    Sound (writeBytesIn s slab part off bs).1 := by
  unfold writeBytesIn
  try dsimp only
  repeat' first
    | with_reducible assumption
    | with_reducible refine stWrite_sound ?_
    | intro _
    | dsimp only
    | split
    | (refine sound_good ?_; dsimp only; refine good_sound ?_)

theorem selectTile_sound {s : State} {r : VeRun} {ti : Nat} {tj : Nat} (h_s : Sound s) :
    Sound (selectTile s r ti tj).1.st := by
  unfold selectTile
  try dsimp only
  repeat' first
    | with_reducible assumption
    | with_reducible refine sound_foldl ?_ _ ?_
    | with_reducible refine sound_foldl_on Prod.fst ?_ _ ?_
    | with_reducible refine tally_sound ?_
    | with_reducible refine noteUndeclared_sound ?_
    | with_reducible refine noteStream_sound ?_
    | with_reducible refine noteReads_sound ?_
    | with_reducible refine writeBytesIn_sound ?_
    | with_reducible refine noteMask_sound ?_
    | with_reducible refine writeElem_sound ?_
    | intro _
    | dsimp only
    | split
    | (refine sound_good ?_; dsimp only; refine good_sound ?_)

theorem runSelect_sound {s : State} {r : VeRun} (h_s : Sound s) :
    Sound (runSelect s r).st := by
  unfold runSelect
  try dsimp only
  repeat' first
    | with_reducible assumption
    | with_reducible refine sound_foldl ?_ _ ?_
    | with_reducible refine sound_foldl_on Prod.fst ?_ _ ?_
    | with_reducible refine sound_foldl_on RunOut.st ?_ _ ?_
    | with_reducible refine sound_foldl_on (fun (q : RunOut × List (Nat × Nat)) => q.1.st) ?_ _ ?_
    | with_reducible refine selectTile_sound ?_
    | intro _
    | dsimp only
    | split
    | (refine sound_good ?_; dsimp only; refine good_sound ?_)

theorem windowLoss_sound {s : State} {slab : Nat} {floor : Nat} {sat : Nat} (h_s : Sound s) :
    Sound (windowLoss s slab floor sat) := by
  unfold windowLoss
  try dsimp only
  repeat' first
    | with_reducible assumption
    | with_reducible refine countLife_sound ?_
    | with_reducible refine raiseOpen_sound ?_
    | intro _
    | dsimp only
    | split
    | (refine sound_good ?_; dsimp only; refine good_sound ?_)

theorem addWindow_sound {s : State} {r : VeRun} {c : Ctx} {xs : List (Nat × Nat × Dy)} {bad : Bool} (h_s : Sound s) :
    Sound (addWindow s r c xs bad).st := by
  unfold addWindow
  try dsimp only
  repeat' first
    | with_reducible assumption
    | with_reducible refine sound_foldl ?_ _ ?_
    | with_reducible refine sound_foldl_on Prod.fst ?_ _ ?_
    | with_reducible refine sound_foldl_on RunOut.st ?_ _ ?_
    | with_reducible refine stWrite_sound ?_
    | with_reducible refine windowLoss_sound ?_
    | intro _
    | dsimp only
    | split
    | (refine sound_good ?_; dsimp only; refine good_sound ?_)

theorem runWideAdd_sound {s : State} {r : VeRun} (h_s : Sound s) :
    Sound (runWideAdd s r).st := by
  unfold runWideAdd
  try dsimp only
  repeat' first
    | with_reducible assumption
    | with_reducible refine tallyNonfin_sound ?_
    | with_reducible refine noteReads_sound ?_
    | with_reducible refine addWindow_sound ?_
    | intro _
    | dsimp only
    | split
    | (refine sound_good ?_; dsimp only; refine good_sound ?_)

theorem runWideConvert_sound {s : State} {r : VeRun} (h_s : Sound s) :
    Sound (runWideConvert s r).st := by
  unfold runWideConvert
  try dsimp only
  repeat' first
    | with_reducible assumption
    | with_reducible refine writeOut_sound ?_
    | with_reducible refine windowLoss_sound ?_
    | intro _
    | dsimp only
    | split
    | (refine sound_good ?_; dsimp only; refine good_sound ?_)

theorem keepTiles_sound {s : State} {old : State} {r : VeRun} {vals : List Nat} (h_s : Sound s) :
    Sound (keepTiles s old r vals) := by
  unfold keepTiles
  try dsimp only
  repeat' first
    | with_reducible assumption
    | with_reducible refine sound_foldl ?_ _ ?_
    | with_reducible refine sound_foldl_on Prod.fst ?_ _ ?_
    | with_reducible refine setVe_sound ?_
    | intro _
    | dsimp only
    | split
    | (refine sound_good ?_; dsimp only; refine good_sound ?_)

theorem freeClash_sound {s : State} {l : List Span} (h_s : Sound s) :
    Sound (freeClash s l) := by
  unfold freeClash
  try dsimp only
  repeat' first
    | with_reducible assumption
    | with_reducible refine sound_foldl ?_ _ ?_
    | with_reducible refine bumpFree_sound ?_
    | with_reducible refine writeElem_sound ?_
    | intro _
    | dsimp only
    | split
    | (refine sound_good ?_; dsimp only; refine good_sound ?_)

theorem performRun_sound {s : State} {r : VeRun} {op : Nat} (h_s : Sound s) :
    Sound (performRun s r op) := by
  unfold performRun
  try dsimp only
  repeat' first
    | with_reducible assumption
    | with_reducible refine raise_sound ?_
    | with_reducible refine setOpKind_sound ?_
    | with_reducible refine setOp_sound ?_
    | with_reducible refine runMap_sound ?_
    | with_reducible refine runReduce_sound ?_
    | with_reducible refine runSelect_sound ?_
    | with_reducible refine runWideAdd_sound ?_
    | with_reducible refine runWideConvert_sound ?_
    | with_reducible refine keepTiles_sound ?_
    | with_reducible refine freeClash_sound ?_
    | intro _
    | dsimp only
    | split
    | (refine sound_good ?_; dsimp only; refine good_sound ?_)

theorem noteProg_sound {s : State} {slab : Nat} {p : Nat} {prog : Nat} {plen : Nat} {ws : List Nat} (h_s : Sound s) :
    Sound (noteProg s slab p prog plen ws) := by
  unfold noteProg
  try dsimp only
  repeat' first
    | with_reducible assumption
    | with_reducible refine reservedRead_sound ?_
    | intro _
    | dsimp only
    | split
    | (refine sound_good ?_; dsimp only; refine good_sound ?_)

theorem noteRun_sound {s : State} {sl : Slot} (h_s : Sound s) :
    Sound (noteRun s sl) := by
  unfold noteRun
  try dsimp only
  repeat' first
    | with_reducible assumption
    | with_reducible refine notePassage_sound ?_
    | with_reducible refine noteContext_sound ?_
    | with_reducible refine reservedRead_sound ?_
    | with_reducible refine noteProg_sound ?_
    | intro _
    | dsimp only
    | split
    | (refine sound_good ?_; dsimp only; refine good_sound ?_)

theorem tryRun_sound {s : State} {op : Nat} (h_s : Sound s) :
    Sound (tryRun s op) := by
  unfold tryRun
  try dsimp only
  repeat' first
    | with_reducible assumption
    | with_reducible refine performRun_sound ?_
    | intro _
    | dsimp only
    | split
    | (refine sound_good ?_; dsimp only; refine good_sound ?_)

theorem startRun_sound {s : State} {sl : Slot} (h_s : Sound s) :
    Sound (startRun s sl) := by
  unfold startRun
  try dsimp only
  repeat' first
    | with_reducible assumption
    | with_reducible refine feedRun_sound ?_
    | with_reducible refine setVe_sound ?_
    | with_reducible refine addOp_sound ?_
    | with_reducible refine tryRun_sound ?_
    | intro _
    | dsimp only
    | split
    | (refine sound_good ?_; dsimp only; refine good_sound ?_)

theorem runFinish_sound {s : State} {op : Nat} (h_s : Sound s) :
    Sound (runFinish s op) := by
  unfold runFinish
  try dsimp only
  repeat' first
    | with_reducible assumption
    | with_reducible refine finishOp_sound ?_
    | with_reducible refine tryRun_sound ?_
    | with_reducible refine finishRun_sound ?_
    | intro _
    | dsimp only
    | split
    | (refine sound_good ?_; dsimp only; refine good_sound ?_)

end Sys2Proof.Laws
end

