-- ==== Sys2Proof/Laws/SoundUpdate.lean ====
section
/-! SUPPORT. The operations of Machine/Update.lean keep `Sound`. -/

namespace Sys2Proof.Laws

open Sys2Proof.Machine Sys2Proof.Safety

theorem updWrite_sound {s : State} {u : UpdRun} {c : Ctx} {key : Option Quad} {checked : Bool} {ext : Nat} {es : List UpdPut} (h_s : Sound s) :
    Sound (updWrite s u c key checked ext es) := by
  unfold updWrite
  try dsimp only
  repeat' first
    | with_reducible assumption
    | with_reducible refine sound_foldl ?_ _ ?_
    | with_reducible refine sound_foldl_on Prod.fst ?_ _ ?_
    | with_reducible refine tally_sound ?_
    | with_reducible refine noteJit_sound ?_
    | with_reducible refine writeSide_sound ?_
    | with_reducible refine writeElem_sound ?_
    | intro _
    | dsimp only
    | split
    | (refine sound_good ?_; dsimp only; refine good_sound ?_)

theorem keepUpdTiles_sound {s : State} {u : UpdRun} {ins : List (List ReadOut)} {vs : List (UpdElem × ProgState)} (h_s : Sound s) :
    Sound (keepUpdTiles s u ins vs) := by
  unfold keepUpdTiles
  try dsimp only
  repeat' first
    | with_reducible assumption
    | with_reducible refine sound_foldl ?_ _ ?_
    | with_reducible refine sound_foldl_on Prod.fst ?_ _ ?_
    | with_reducible refine setVe_sound ?_
    | intro _
    | dsimp only
    | split
    | (refine sound_good ?_; dsimp only; refine good_sound ?_)

theorem updTile_sound {q : UpdOut} {u : UpdRun} {ws : List Nat} {rows : Option (List Nat)} {t : Nat} (h_q : Sound q.st) :
    Sound (updTile q u ws rows t).st := by
  unfold updTile
  try dsimp only
  repeat' first
    | with_reducible assumption
    | with_reducible refine sound_foldl ?_ _ ?_
    | with_reducible refine sound_foldl_on Prod.fst ?_ _ ?_
    | with_reducible refine sound_foldl_on UpdOut.st ?_ _ ?_
    | with_reducible refine tallyNonfin_sound ?_
    | with_reducible refine updWrite_sound ?_
    | with_reducible refine keepUpdTiles_sound ?_
    | with_reducible refine reservedRead_sound ?_
    | with_reducible refine noteStream_sound ?_
    | intro _
    | dsimp only
    | split
    | (refine sound_good ?_; dsimp only; refine good_sound ?_)

theorem keepCopy_sound {s : State} {old : State} {u : UpdRun} {t : Nat} {i : Nat} {wt : Bool} (h_s : Sound s) :
    Sound (keepCopy s old u t i wt) := by
  unfold keepCopy
  try dsimp only
  repeat' first
    | with_reducible assumption
    | with_reducible refine sound_foldl ?_ _ ?_
    | with_reducible refine sound_foldl_on Prod.fst ?_ _ ?_
    | with_reducible refine writeSide_sound ?_
    | with_reducible refine reservedRead_sound ?_
    | with_reducible refine writeElem_sound ?_
    | intro _
    | dsimp only
    | split
    | (refine sound_good ?_; dsimp only; refine good_sound ?_)

theorem keepTile_sound {s : State} {old : State} {u : UpdRun} {t : Nat} (h_s : Sound s) :
    Sound (keepTile s old u t) := by
  unfold keepTile
  try dsimp only
  repeat' first
    | with_reducible assumption
    | with_reducible refine keepCopy_sound ?_
    | intro _
    | dsimp only
    | split
    | (refine sound_good ?_; dsimp only; refine good_sound ?_)

theorem writeCounts_sound {s : State} {u : UpdRun} {rows : Option (List Nat)} {t : Nat} (h_s : Sound s) :
    Sound (writeCounts s u rows t) := by
  unfold writeCounts
  try dsimp only
  repeat' first
    | with_reducible assumption
    | with_reducible refine sound_foldl ?_ _ ?_
    | with_reducible refine stWrite_sound ?_
    | intro _
    | dsimp only
    | split
    | (refine sound_good ?_; dsimp only; refine good_sound ?_)

theorem updTiles_sound {old : State} {u : UpdRun} {ws : List Nat} {rows : Option (List Nat)} {bad : Option Nat} {l : List Nat} {q : UpdOut}
    (h_s : Sound q.st) : Sound (updTiles old u ws rows bad l q).1.st := by
  induction l generalizing q with
  | nil => exact h_s
  | cons t ts ih =>
    unfold updTiles
    dsimp only
    split
    · exact ih (writeCounts_sound (keepTile_sound h_s))
    · split
      · exact h_s
      · exact ih (writeCounts_sound (updTile_sound h_s))

theorem updStop_sound {s : State} {u : UpdRun} (h_s : Sound s) :
    Sound (updStop s u) := by
  unfold updStop
  try dsimp only
  repeat' first
    | with_reducible assumption
    | with_reducible refine setVe_sound ?_
    | intro _
    | dsimp only
    | split
    | (refine sound_good ?_; dsimp only; refine good_sound ?_)

theorem noteUpdate_sound {s : State} {u : UpdRun} (h_s : Sound s) :
    Sound (noteUpdate s u) := by
  unfold noteUpdate
  try dsimp only
  repeat' first
    | with_reducible assumption
    | with_reducible refine noteUndeclared_sound ?_
    | with_reducible refine raiseOnceStep_sound ?_
    | with_reducible refine noteTable_sound ?_
    | with_reducible refine reservedWrite_sound ?_
    | with_reducible refine noteMask_sound ?_
    | intro _
    | dsimp only
    | split
    | (refine sound_good ?_; dsimp only; refine good_sound ?_)

theorem updDone_sound {s : State} {sl : Slot} {u : UpdRun} {vals : List (Nat × Nat)} {sat : Nat} (h_s : Sound s) :
    Sound (updDone s sl u vals sat) := by
  unfold updDone
  try dsimp only
  repeat' first
    | with_reducible assumption
    | with_reducible refine setOpKind_sound ?_
    | intro _
    | dsimp only
    | split
    | (refine sound_good ?_; dsimp only; refine good_sound ?_)

theorem performUpdate_sound {s : State} {sl : Slot} {start : Nat} {vals : List (Nat × Nat)} {sat : Nat} {badTile : Option Nat} (h_s : Sound s) :
    Sound (performUpdate s sl start vals sat badTile) := by
  unfold performUpdate
  try dsimp only
  repeat' first
    | with_reducible assumption
    | with_reducible refine notePassage_sound ?_
    | with_reducible refine updStop_sound ?_
    | with_reducible refine noteUpdate_sound ?_
    | with_reducible refine updDone_sound ?_
    | with_reducible refine updTiles_sound (?_)
    | with_reducible refine raise_sound ?_
    | with_reducible refine raiseOnceStep_sound ?_
    | with_reducible refine noteTable_sound ?_
    | with_reducible refine raiseOpen_sound ?_
    | with_reducible refine finishOp_sound ?_
    | with_reducible refine noteVer_sound ?_
    | with_reducible refine markUpdating_sound ?_
    | intro _
    | dsimp only
    | split
    | (refine sound_good ?_; dsimp only; refine good_sound ?_)

theorem noteUpd_sound {s : State} {sl : Slot} (h_s : Sound s) :
    Sound (noteUpd s sl) := by
  unfold noteUpd
  try dsimp only
  repeat' first
    | with_reducible assumption
    | with_reducible refine notePassage_sound ?_
    | with_reducible refine noteContext_sound ?_
    | with_reducible refine reservedRead_sound ?_
    | with_reducible refine noteProg_sound ?_
    | intro _
    | dsimp only
    | split
    | (refine sound_good ?_; dsimp only; refine good_sound ?_)

theorem startUpdate_sound {s : State} {sl : Slot} {badTile : Option Nat} (h_s : Sound s) :
    Sound (startUpdate s sl badTile) := by
  unfold startUpdate
  try dsimp only
  repeat' first
    | with_reducible assumption
    | with_reducible refine performUpdate_sound ?_
    | with_reducible refine setVe_sound ?_
    | with_reducible refine addOp_sound ?_
    | intro _
    | dsimp only
    | split
    | (refine sound_good ?_; dsimp only; refine good_sound ?_)

end Sys2Proof.Laws
end

