-- ==== Sys2Proof/Laws/SoundRope.lean ====
section
/-! SUPPORT. The operations of Machine/Rope.lean keep `Sound`. -/

namespace Sys2Proof.Laws

open Sys2Proof.Machine Sys2Proof.Safety

theorem noteSend_sound {s : State} {sl : Slot} (h_s : Sound s) :
    Sound (noteSend s sl) := by
  unfold noteSend
  try dsimp only
  repeat' first
    | with_reducible assumption
    | with_reducible refine notePassage_sound ?_
    | with_reducible refine reservedRead_sound ?_
    | intro _
    | split
    | (refine sound_good ?_; dsimp only; refine good_sound ?_)

theorem enterTiles_sound {s : State} {h n : Nat} (h_s : Sound s) : Sound (enterTiles s h n) := by
  induction n generalizing s with
  | zero => exact h_s
  | succ n ih =>
    unfold enterTiles
    split
    · split
      · exact ih (unitOut_sound (sound_good (good_sound h_s)))
      · exact h_s
    · exact h_s

theorem holdTimeout_sound {s : State} {h : Nat} (h_s : Sound s) :
    Sound (holdTimeout s h) := by
  unfold holdTimeout
  try dsimp only
  repeat' first
    | with_reducible assumption
    | with_reducible refine raise_sound ?_
    | intro _
    | split
    | (refine sound_good ?_; dsimp only; refine good_sound ?_)

theorem ropeFetch_sound {s : State} {p : Nat} {i : Nat} {e : REntry} (h_s : Sound s) :
    Sound (ropeFetch s p i e) := by
  unfold ropeFetch
  try dsimp only
  repeat' first
    | with_reducible assumption
    | with_reducible refine enterTiles_sound ?_
    | intro _
    | split
    | (refine sound_good ?_; dsimp only; refine good_sound ?_)

theorem doSend_sound {s : State} {sl : Slot} (h_s : Sound s) :
    Sound (doSend s sl) := by
  unfold doSend
  try dsimp only
  repeat' first
    | with_reducible assumption
    | with_reducible refine addOp_sound ?_
    | with_reducible refine enterTiles_sound ?_
    | intro _
    | split
    | (refine sound_good ?_; dsimp only; refine good_sound ?_)

theorem writeTile_sound {s : State} {slab : Nat} {t : RopeTile} (h_s : Sound s) : Sound (writeTile s slab t) := by
  refine ⟨h_s.1, ?_, h_s.2.2⟩
  unfold writeTile
  dsimp only
  generalize (List.range t.bytes.length).zip t.bytes = l
  have : ∀ m : Mem, Mem.wf m → Mem.wf (l.foldl (fun m ib => match ib.2 with
      | some b => m.setByte (stKey slab t.dpart (65536 * t.dslot) + ib.1) b
      | none => m.filter (fun kv => kv.1 != stKey slab t.dpart (65536 * t.dslot) + ib.1)) m) := by
    induction l with
    | nil => exact fun _ h => h
    | cons x l ih =>
      intro m hm
      refine ih _ ?_
      dsimp only
      split
      · exact setByte_wf _ _ hm
      · exact List.Pairwise.filter _ hm
  exact this _ h_s.2.1

theorem placeTile_sound {s : State} {slab : Nat} {t : RopeTile} (h_s : Sound s) : Sound (placeTile s slab t).1 := by
  unfold placeTile
  dsimp only
  split
  · exact h_s
  · split
    · split
      · rename_i u h
        exact writeTile_sound (allocate_sound h_s _ h)
      · exact h_s
    · split
      · exact writeTile_sound (holdSlot_sound h_s)
      · exact holdSlot_sound h_s

theorem tileEnd_sound {s : State} {t : RopeTile} (h_s : Sound s) :
    Sound (tileEnd s t) := by
  unfold tileEnd
  try dsimp only
  repeat' first
    | with_reducible assumption
    | with_reducible refine finishOp_sound ?_
    | with_reducible refine refresh_sound ?_
    | intro _
    | split
    | (refine sound_good ?_; dsimp only; refine good_sound ?_)

theorem tileArrive_sound {s : State} {h : Nat} (h_s : Sound s) :
    Sound (tileArrive s h) := by
  unfold tileArrive
  try dsimp only
  repeat' first
    | with_reducible assumption
    | with_reducible refine unitOut_sound ?_
    | with_reducible refine unitBack_sound ?_
    | with_reducible refine enterTiles_sound ?_
    | with_reducible refine placeTile_sound ?_
    | with_reducible refine tileEnd_sound ?_
    | with_reducible refine endHold_sound ?_
    | intro _
    | split
    | (refine sound_good ?_; dsimp only; refine good_sound ?_)

end Sys2Proof.Laws
end

