-- ==== Sys2Proof/Laws/SoundCollective.lean ====
section
/-! SUPPORT. The operations of Machine/Collective.lean keep `Sound`. -/

namespace Sys2Proof.Laws

open Sys2Proof.Machine Sys2Proof.Safety

theorem noteColl_sound {s : State} {sl : Slot} (h_s : Sound s) :
    Sound (noteColl s sl) := by
  unfold noteColl
  try dsimp only
  repeat' first
    | with_reducible assumption
    | with_reducible refine notePassage_sound ?_
    | with_reducible refine noteContext_sound ?_
    | with_reducible refine reservedRead_sound ?_
    | intro _
    | dsimp only
    | split
    | (refine sound_good ?_; dsimp only; refine good_sound ?_)

theorem noteMaskedFrame_sound {s : State} {f : Frame} (h_s : Sound s) :
    Sound (noteMaskedFrame s f) := by
  unfold noteMaskedFrame
  try dsimp only
  repeat' first
    | with_reducible assumption
    | with_reducible refine raise_sound ?_
    | intro _
    | dsimp only
    | split
    | (refine sound_good ?_; dsimp only; refine good_sound ?_)

theorem putChild_sound {s : State} {f : Frame} (h_s : Sound s) :
    Sound (putChild s f) := by
  unfold putChild
  try dsimp only
  repeat' first
    | with_reducible assumption
    | intro _
    | dsimp only
    | split
    | (refine sound_good ?_; dsimp only; refine good_sound ?_)

theorem takeStats_sound {s : State} {f : Frame} (h_s : Sound s) :
    Sound (takeStats s f) := by
  unfold takeStats
  try dsimp only
  repeat' first
    | with_reducible assumption
    | with_reducible refine rootTry_sound ?_
    | with_reducible refine putChild_sound ?_
    | with_reducible refine bufferFrame_sound ?_
    | intro _
    | dsimp only
    | split
    | (refine sound_good ?_; dsimp only; refine good_sound ?_)

theorem takeNotice_sound {s : State} (h_s : Sound s) :
    Sound (takeNotice s) := by
  unfold takeNotice
  try dsimp only
  repeat' first
    | with_reducible assumption
    | with_reducible refine queueFrame_sound ?_
    | with_reducible refine rootAbort_sound ?_
    | intro _
    | dsimp only
    | split
    | (refine sound_good ?_; dsimp only; refine good_sound ?_)

theorem takeOutcome_sound {s : State} {f : Frame} (h_s : Sound s) :
    Sound (takeOutcome s f) := by
  unfold takeOutcome
  try dsimp only
  repeat' first
    | with_reducible assumption
    | with_reducible refine tryCommit_sound ?_
    | with_reducible refine sendOutcome_sound ?_
    | with_reducible refine abortWhenDone_sound ?_
    | intro _
    | dsimp only
    | split
    | (refine sound_good ?_; dsimp only; refine good_sound ?_)

theorem acceptFrame_sound {s : State} {f : Frame} (h_s : Sound s) :
    Sound (acceptFrame s f) := by
  unfold acceptFrame
  try dsimp only
  repeat' first
    | with_reducible assumption
    | with_reducible refine noteMaskedFrame_sound ?_
    | with_reducible refine takeStats_sound ?_
    | with_reducible refine takeNotice_sound ?_
    | with_reducible refine takeOutcome_sound ?_
    | with_reducible refine bufferFrame_sound ?_
    | with_reducible refine writeGather_sound ?_
    | with_reducible refine gatherWritten_sound ?_
    | with_reducible refine noteMask_sound ?_
    | intro _
    | dsimp only
    | split
    | (refine sound_good ?_; dsimp only; refine good_sound ?_)

theorem deliver_sound {s : State} {f : Frame} (h_s : Sound s) :
    Sound (deliver s f).1 := by
  unfold deliver
  try dsimp only
  repeat' first
    | with_reducible assumption
    | with_reducible refine acceptFrame_sound ?_
    | with_reducible refine raiseOnceStep_sound ?_
    | intro _
    | dsimp only
    | split
    | (refine sound_good ?_; dsimp only; refine good_sound ?_)

theorem retireRlp_sound {s : State} {ch : Nat} (h_s : Sound s) :
    Sound (retireRlp s ch) := by
  unfold retireRlp
  try dsimp only
  repeat' first
    | with_reducible assumption
    | with_reducible refine setRlp_sound ?_
    | with_reducible refine unitReclaim_sound ?_
    | with_reducible refine raise_sound ?_
    | with_reducible refine refillQueue_sound ?_
    | intro _
    | dsimp only
    | split
    | (refine sound_good ?_; dsimp only; refine good_sound ?_)

theorem laneDown_sound {s : State} {lane : Nat} (h_s : Sound s) :
    Sound (laneDown s lane) := by
  unfold laneDown
  try dsimp only
  repeat' first
    | with_reducible assumption
    | with_reducible refine retireRlp_sound ?_
    | with_reducible refine raise_sound ?_
    | with_reducible refine laneUp_sound ?_
    | intro _
    | dsimp only
    | split
    | (refine sound_good ?_; dsimp only; refine good_sound ?_)

theorem rlpFault_sound {s : State} {ch : Nat} (h_s : Sound s) :
    Sound (rlpFault s ch) := by
  unfold rlpFault
  try dsimp only
  repeat' first
    | with_reducible assumption
    | with_reducible refine transient_sound ?_
    | with_reducible refine retireRlp_sound ?_
    | intro _
    | dsimp only
    | split
    | (refine sound_good ?_; dsimp only; refine good_sound ?_)

theorem respond_sound {s : State} {ch : Nat} {nack : Bool} (h_s : Sound s) :
    Sound (respond s ch nack) := by
  unfold respond
  try dsimp only
  repeat' first
    | with_reducible assumption
    | with_reducible refine setRlp_sound ?_
    | intro _
    | dsimp only
    | split
    | (refine sound_good ?_; dsimp only; refine good_sound ?_)

theorem frameReserved_sound {s : State} (h_s : Sound s) :
    Sound (frameReserved s) := by
  unfold frameReserved
  try dsimp only
  repeat' first
    | with_reducible assumption
    | with_reducible refine bumpFree_sound ?_
    | with_reducible refine raise_sound ?_
    | with_reducible refine reservedWrite_sound ?_
    | intro _
    | dsimp only
    | split
    | (refine sound_good ?_; dsimp only; refine good_sound ?_)

theorem receive_sound {s : State} {ch : Nat} {err : Bool} {bytes : List Byte} {typ : Nat} (h_s : Sound s) :
    Sound (receive s ch err bytes typ) := by
  unfold receive
  try dsimp only
  repeat' first
    | with_reducible assumption
    | with_reducible refine deliver_sound ?_
    | with_reducible refine rlpFault_sound ?_
    | with_reducible refine respond_sound ?_
    | with_reducible refine frameReserved_sound ?_
    | with_reducible refine unitOut_sound ?_
    | with_reducible refine unitBack_sound ?_
    | intro _
    | dsimp only
    | split
    | (refine sound_good ?_; dsimp only; refine good_sound ?_)

theorem pumpLoop_sound {s : State} {n : Nat} (h_s : Sound s) : Sound (pumpLoop s n) := by
  induction n generalizing s with
  | zero => exact h_s
  | succ n ih =>
    unfold pumpLoop
    split
    · dsimp only
      split
      · exact h_s
      · exact ih (sound_good (good_sound (deliver_sound h_s)))
    · exact h_s

theorem pumpAll_sound {s : State} (h_s : Sound s) :
    Sound (pumpAll s) := by
  unfold pumpAll
  try dsimp only
  repeat' first
    | with_reducible assumption
    | with_reducible refine pumpLoop_sound ?_
    | intro _
    | dsimp only
    | split
    | (refine sound_good ?_; dsimp only; refine good_sound ?_)

theorem sendFrame_sound {s : State} {h : RGroup} {ch : Nat} {op : Nat} {f : Frame} (h_s : Sound s) :
    Sound (sendFrame s h ch op f) := by
  unfold sendFrame
  try dsimp only
  repeat' first
    | with_reducible assumption
    | with_reducible refine queueFrame_sound ?_
    | intro _
    | dsimp only
    | split
    | (refine sound_good ?_; dsimp only; refine good_sound ?_)

theorem pushFrame_sound {s : State} {r : FrameRun} {f : Frame} (h_s : Sound s) :
    Sound (pushFrame s r f) := by
  unfold pushFrame
  try dsimp only
  repeat' first
    | with_reducible assumption
    | with_reducible refine sendFrame_sound ?_
    | with_reducible refine setOpKind_sound ?_
    | intro _
    | dsimp only
    | split
    | (refine sound_good ?_; dsimp only; refine good_sound ?_)

theorem sparseTile_sound {s : State} {r : FrameRun} {i : Nat} (h_s : Sound s) :
    Sound (sparseTile s r i) := by
  unfold sparseTile
  try dsimp only
  repeat' first
    | with_reducible assumption
    | with_reducible refine pushFrame_sound ?_
    | with_reducible refine raiseOpen_sound ?_
    | intro _
    | dsimp only
    | split
    | (refine sound_good ?_; dsimp only; refine good_sound ?_)

theorem finishTile_sound {s : State} {h : RGroup} {g : Nat} {x : GTensor} {t : Nat} {y : Nat → Dy} (h_s : Sound s) :
    Sound (finishTile s h g x t y) := by
  unfold finishTile
  try dsimp only
  repeat' first
    | with_reducible assumption
    | with_reducible refine tally_sound ?_
    | with_reducible refine noteJit_sound ?_
    | with_reducible refine noteStream_sound ?_
    | with_reducible refine putJob_sound ?_
    | intro _
    | dsimp only
    | split
    | (refine sound_good ?_; dsimp only; refine good_sound ?_)

theorem finishNode_sound {s : State} {h : RGroup} {g : Nat} {tensor : Nat} {x : GTensor} {t : Nat} {vals : List Word} {ch : Nat} {op : Nat} (h_s : Sound s) :
    Sound (finishNode s h g tensor x t vals ch op) := by
  unfold finishNode
  try dsimp only
  repeat' first
    | with_reducible assumption
    | with_reducible refine finishTile_sound ?_
    | with_reducible refine queueFrame_sound ?_
    | intro _
    | dsimp only
    | split
    | (refine sound_good ?_; dsimp only; refine good_sound ?_)

theorem denseTile_sound {s : State} {r : FrameRun} {i : Nat} (h_s : Sound s) :
    Sound (denseTile s r i) := by
  unfold denseTile
  try dsimp only
  repeat' first
    | with_reducible assumption
    | with_reducible refine tallyNonfin_sound ?_
    | with_reducible refine finishNode_sound ?_
    | with_reducible refine setOpKind_sound ?_
    | with_reducible refine noteStream_sound ?_
    | intro _
    | dsimp only
    | split
    | (refine sound_good ?_; dsimp only; refine good_sound ?_)

theorem gatherTile_sound {s : State} {r : FrameRun} {i : Nat} (h_s : Sound s) :
    Sound (gatherTile s r i) := by
  unfold gatherTile
  try dsimp only
  repeat' first
    | with_reducible assumption
    | with_reducible refine sound_foldl ?_ _ ?_
    | with_reducible refine pushFrame_sound ?_
    | with_reducible refine keepGather_sound ?_
    | intro _
    | dsimp only
    | split
    | (refine sound_good ?_; dsimp only; refine good_sound ?_)

theorem doFrames_sound {s : State} {sl : Slot} {tile : State → FrameRun → Nat → State} (h_s : Sound s)
    (ht : ∀ t r i, Sound t → Sound (tile t r i)) : Sound (doFrames s sl tile) := by
  unfold doFrames
  dsimp only
  exact settleGathers_sound (settleFrames_sound (pumpAll_sound (sound_foldl (fun t i h => ht t _ i h) _ (noteMask_sound (addOp_sound h_s)))))

theorem doStats_sound {s : State} {sl : Slot} (h_s : Sound s) : Sound (doStats s sl) := by
  unfold doStats
  split
  · exact h_s
  · refine rootTry_sound (settleFrames_sound (sound_foldl (fun t f h => putChild_sound (dropFrame_sound h)) _ (addOp_sound ?_)))
    refine sound_good ?_
    exact good_sound (sound_foldl (fun t i h => noteStream_sound h) _ h_s)

theorem statsSend_sound {s : State} {i : Nat} (h_s : Sound s) :
    Sound (statsSend s i) := by
  unfold statsSend
  try dsimp only
  repeat' first
    | with_reducible assumption
    | with_reducible refine queueFrame_sound ?_
    | intro _
    | dsimp only
    | split
    | (refine sound_good ?_; dsimp only; refine good_sound ?_)

theorem windowIn_sound {s : State} {slab : Nat} {l : List Nat} (h_s : Sound s) :
    ∀ r, windowIn? s slab l = some r → Sound r.2.2 := by
  induction l with
  | nil => intro r h; cases h
  | cons p ps ih =>
    intro r h
    unfold windowIn? at h
    dsimp only at h
    split at h
    · exact ih r h
    · split at h
      · rename_i t ht; cases h; exact allocateFg_sound h_s _ ht
      · exact ih r h

theorem windowAllocate_sound {s : State} {slab : Nat} (h_s : Sound s) : Sound (windowAllocate s slab) := by
  unfold windowAllocate
  split
  · split
    · exact h_s
    · split
      · rename_i h; exact sound_good (good_sound (windowIn_sound h_s _ h))
      · exact h_s
  · exact h_s

theorem addList_sound {s : State} {h : RGroup} {x : GTensor} {w : Window} {f : Frame} (h_s : Sound s) :
    Sound (addList s h x w f) := by
  unfold addList
  try dsimp only
  repeat' first
    | with_reducible assumption
    | with_reducible refine sound_foldl ?_ _ ?_
    | with_reducible refine sound_foldl_on Prod.fst ?_ _ ?_
    | with_reducible refine tallyNonfin_sound ?_
    | with_reducible refine raise_sound ?_
    | with_reducible refine raiseOpen_sound ?_
    | with_reducible refine noteStream_sound ?_
    | with_reducible refine windowLoss_sound ?_
    | intro _
    | dsimp only
    | split
    | (refine sound_good ?_; dsimp only; refine good_sound ?_)

theorem ownerServed_sound {s : State} {slab : Nat} (h_s : Sound s) :
    Sound (ownerServed s slab) := by
  unfold ownerServed
  try dsimp only
  repeat' first
    | with_reducible assumption
    | with_reducible refine setVe_sound ?_
    | intro _
    | dsimp only
    | split
    | (refine sound_good ?_; dsimp only; refine good_sound ?_)

theorem ownerWaits_sound {s : State} {slab : Nat} (h_s : Sound s) :
    Sound (ownerWaits s slab) := by
  unfold ownerWaits
  try dsimp only
  repeat' first
    | with_reducible assumption
    | with_reducible refine setVe_sound ?_
    | intro _
    | dsimp only
    | split
    | (refine sound_good ?_; dsimp only; refine good_sound ?_)

theorem ownerAdd_sound {s : State} {g : Nat} {member : Nat} (h_s : Sound s) :
    Sound (ownerAdd s g member) := by
  unfold ownerAdd
  try dsimp only
  repeat' first
    | with_reducible assumption
    | with_reducible refine pumpAll_sound ?_
    | with_reducible refine addList_sound ?_
    | with_reducible refine ownerServed_sound ?_
    | with_reducible refine ownerWaits_sound ?_
    | with_reducible refine dropFrame_sound ?_
    | intro _
    | dsimp only
    | split
    | (refine sound_good ?_; dsimp only; refine good_sound ?_)

theorem ownerConvert_sound {s : State} {g : Nat} {u : Nat} (h_s : Sound s) :
    Sound (ownerConvert s g u) := by
  unfold ownerConvert
  try dsimp only
  repeat' first
    | with_reducible assumption
    | with_reducible refine sound_foldl ?_ _ ?_
    | with_reducible refine sound_foldl_on Prod.fst ?_ _ ?_
    | with_reducible refine finishTile_sound ?_
    | with_reducible refine ownerServed_sound ?_
    | with_reducible refine ownerWaits_sound ?_
    | with_reducible refine windowLoss_sound ?_
    | with_reducible refine releaseSlot_sound ?_
    | intro _
    | dsimp only
    | split
    | (refine sound_good ?_; dsimp only; refine good_sound ?_)

theorem setDense_sound {s : State} {v : DenseVal} {x : Option DenseVal} (h_s : Sound s) :
    Sound (setDense s v x) := by
  unfold setDense
  try dsimp only
  repeat' first
    | with_reducible assumption
    | intro _
    | dsimp only
    | split
    | (refine sound_good ?_; dsimp only; refine good_sound ?_)

theorem countTree_sound {s : State} {slab : Nat} {n : Nat} (h_s : Sound s) :
    Sound (countTree s slab n) := by
  unfold countTree
  try dsimp only
  repeat' first
    | with_reducible assumption
    | with_reducible refine setVe_sound ?_
    | intro _
    | dsimp only
    | split
    | (refine sound_good ?_; dsimp only; refine good_sound ?_)

theorem denseSum_sound {s : State} {slab : Nat} {x : GTensor} {t : Nat} {vals : List Word} {child : Option Frame} (h_s : Sound s) :
    Sound (denseSum s slab x t vals child).1 := by
  unfold denseSum
  split
  · exact h_s
  · exact countTree_sound (ownerServed_sound (dropFrame_sound h_s))

theorem denseAdd_sound {s : State} {g u level : Nat} (h_s : Sound s) : Sound (denseAdd s g u level) := by
  unfold denseAdd
  dsimp only
  split
  · split
    · exact h_s
    · split
      · exact h_s
      · split
        · exact ownerWaits_sound h_s
        · split
          · exact finishNode_sound (setDense_sound (denseSum_sound h_s))
          · exact setDense_sound (denseSum_sound h_s)
  · exact h_s

theorem abortNotice_sound {s : State} (h_s : Sound s) :
    Sound (abortNotice s) := by
  unfold abortNotice
  try dsimp only
  repeat' first
    | with_reducible assumption
    | with_reducible refine takeNotice_sound ?_
    | with_reducible refine rootAbort_sound ?_
    | intro _
    | dsimp only
    | split
    | (refine sound_good ?_; dsimp only; refine good_sound ?_)

theorem deadlineExpire_sound {s : State} (h_s : Sound s) :
    Sound (deadlineExpire s) := by
  unfold deadlineExpire
  try dsimp only
  repeat' first
    | with_reducible assumption
    | with_reducible refine callAbort_sound ?_
    | intro _
    | dsimp only
    | split
    | (refine sound_good ?_; dsimp only; refine good_sound ?_)

theorem setGroup_boot {s : State} {k : Nat} {g : Group} : (setGroup s k g).boot = s.boot := rfl
theorem finishBurst_boot (s : State) (op : Nat) : (finishBurst s op).boot = s.boot := by
  unfold finishBurst
  split
  · split
    · split <;> simp
    · rfl
  · rfl
theorem cutBurst_boot (s : State) (a : Nat) (b : LastBurst) (n : Nat) : (cutBurst s a b n).boot = s.boot := by
  have hd : ∀ (t : State) (l : List Chunk), (dropInflight t l).boot = t.boot := fun t l => by
    unfold dropInflight
    exact boot_foldl (fun u c => by dsimp only; exact setGroup_boot) l t
  unfold cutBurst
  dsimp only
  rw [finishBurst_boot]
  split
  · rw [setGroup_boot, hd]; rfl
  · rw [hd]; rfl
theorem stopArray_boot (s : State) (a : Nat) : (stopArray s a).boot = s.boot := by
  unfold stopArray
  dsimp only
  split
  · rfl
  · split
    · rfl
    · rw [cutBurst_boot]; rfl
theorem stopArrays_boot (s : State) (l : List Nat) : (stopArrays s l).boot = s.boot := boot_foldl stopArray_boot l s
/-- A step is in progress, so the stage is 0xA, where an outcome may be awaited. -/
theorem outcomeTimeout_sound {s : State} (h_s : Sound s) : Sound (outcomeTimeout s) := by
  unfold outcomeTimeout
  split
  · exact h_s
  · rename_i h
    have hA : s.boot.stage = 10 := h_s.2.2.2.2.1 (by simp at h; simp [h])
    dsimp only
    have ht := stopArrays_sound (as := List.range s.silicon.cls.arrays) (s := { s with psc := { s.psc with stopIssue := true, run := false } })
      (by refine sound_good ?_; dsimp only; exact good_less h_s (by simp) (by simp) (by simp))
    have hb : (stopArrays { s with psc := { s.psc with stopIssue := true, run := false } } (List.range s.silicon.cls.arrays)).boot.stage = 10 := by
      rw [stopArrays_boot]; exact hA
    exact countLife_sound (raiseOpen_sound ⟨ht.1, ht.2.1, ht.2.2.1, ht.2.2.2.1, fun _ => hb, ht.2.2.2.2.2⟩)

theorem peerFail_sound {s : State} {rank : Nat} (h_s : Sound s) :
    Sound (peerFail s rank) := by
  unfold peerFail
  try dsimp only
  repeat' first
    | with_reducible assumption
    | with_reducible refine callAbort_sound ?_
    | intro _
    | dsimp only
    | split
    | (refine sound_good ?_; dsimp only; refine good_sound ?_)

theorem frameSent_sound {s : State} {op : Nat} (h_s : Sound s) :
    Sound (frameSent s op) := by
  unfold frameSent
  try dsimp only
  repeat' first
    | with_reducible assumption
    | with_reducible refine setOpKind_sound ?_
    | with_reducible refine settleFrames_sound ?_
    | intro _
    | dsimp only
    | split
    | (refine sound_good ?_; dsimp only; refine good_sound ?_)

theorem transmit_sound {s : State} {ch : Nat} (h_s : Sound s) :
    Sound (transmit s ch) := by
  unfold transmit
  try dsimp only
  repeat' first
    | with_reducible assumption
    | with_reducible refine frameSent_sound ?_
    | with_reducible refine setRlp_sound ?_
    | with_reducible refine unitOut_sound ?_
    | with_reducible refine refillQueue_sound ?_
    | intro _
    | dsimp only
    | split
    | (refine sound_good ?_; dsimp only; refine good_sound ?_)

theorem txCredit_sound {s : State} {ch : Nat} (h_s : Sound s) :
    Sound (txCredit s ch) := by
  unfold txCredit
  try dsimp only
  repeat' first
    | with_reducible assumption
    | with_reducible refine setRlp_sound ?_
    | with_reducible refine unitBack_sound ?_
    | intro _
    | dsimp only
    | split
    | (refine sound_good ?_; dsimp only; refine good_sound ?_)

theorem frameSlot_sound {s : State} {ch kind : Nat} {tile : State → FrameRun → Nat → State} (h_s : Sound s)
    (ht : ∀ t r i, Sound t → Sound (tile t r i)) : Sound (frameSlot s ch kind tile) := by
  unfold frameSlot
  split
  · rename_i h; exact doFrames_sound (takeSlot_sound h_s h) ht
  · exact h_s

end Sys2Proof.Laws
end

