-- ==== Sys2Proof/Laws/SoundMemoryPort.lean ====
section
/-! SUPPORT. The operations of Machine/MemoryPort.lean keep `Sound`. -/

namespace Sys2Proof.Laws

open Sys2Proof.Machine Sys2Proof.Safety

theorem setJob_sound {s : State} {id : Nat} {f : Job → Job} (h_s : Sound s) :
    Sound (setJob s id f) := by
  unfold setJob
  try dsimp only
  repeat' first
    | with_reducible assumption
    | intro _
    | split
    | (refine sound_good ?_; dsimp only; refine good_sound ?_)

theorem dropJob_sound {s : State} {id : Nat} (h_s : Sound s) :
    Sound (dropJob s id) := by
  unfold dropJob
  try dsimp only
  repeat' first
    | with_reducible assumption
    | intro _
    | split
    | (refine sound_good ?_; dsimp only; refine good_sound ?_)

theorem noteStraddle_sound {s : State} {w : Want} (h_s : Sound s) :
    Sound (noteStraddle s w) := by
  unfold noteStraddle
  try dsimp only
  repeat' first
    | with_reducible assumption
    | with_reducible refine raise_sound ?_
    | with_reducible refine setJob_sound ?_
    | intro _
    | split
    | (refine sound_good ?_; dsimp only; refine good_sound ?_)

theorem bmpRequest_sound {s : State} {ch : Nat} (h_s : Sound s) :
    Sound (bmpRequest s ch) := by
  unfold bmpRequest
  try dsimp only
  repeat' first
    | with_reducible assumption
    | with_reducible refine bumpFree_sound ?_
    | with_reducible refine writeHost_sound ?_
    | with_reducible refine setChan_sound ?_
    | with_reducible refine unitOut_sound ?_
    | with_reducible refine setJob_sound ?_
    | with_reducible refine noteStraddle_sound ?_
    | intro _
    | split
    | (refine sound_good ?_; dsimp only; refine good_sound ?_)

theorem creditWrite_sound {s : State} {ch : Nat} (h_s : Sound s) :
    Sound (creditWrite s ch) := by
  unfold creditWrite
  try dsimp only
  repeat' first
    | with_reducible assumption
    | with_reducible refine setChan_sound ?_
    | with_reducible refine unitOut_sound ?_
    | with_reducible refine wdataCredit_sound ?_
    | intro _
    | split
    | (refine sound_good ?_; dsimp only; refine good_sound ?_)

theorem fetchDone_sound {s : State} {p : Nat} {i : Nat} (h_s : Sound s) :
    Sound (fetchDone s p i) := by
  unfold fetchDone
  try dsimp only
  repeat' first
    | with_reducible assumption
    | with_reducible refine refresh_sound ?_
    | with_reducible refine ropeFetch_sound ?_
    | intro _
    | split
    | (refine sound_good ?_; dsimp only; refine good_sound ?_)

theorem jobEnd_sound {s : State} {id : Nat} (h_s : Sound s) :
    Sound (jobEnd s id) := by
  unfold jobEnd
  try dsimp only
  repeat' first
    | with_reducible assumption
    | with_reducible refine dropJob_sound ?_
    | with_reducible refine fetchDone_sound ?_
    | with_reducible refine gatherWritten_sound ?_
    | intro _
    | split
    | (refine sound_good ?_; dsimp only; refine good_sound ?_)

theorem feedJob_sound {s : State} {j : Job} {a : Nat} {bytes : List Byte} (h_s : Sound s) :
    Sound (feedJob s j a bytes) := by
  unfold feedJob
  try dsimp only
  repeat' first
    | with_reducible assumption
    | with_reducible refine setJob_sound ?_
    | intro _
    | split
    | (refine sound_good ?_; dsimp only; refine good_sound ?_)

theorem readArrives_sound {s : State} {r : BmpReq} {j : Job} {data : List Byte} (h_s : Sound s) :
    Sound (readArrives s r j data) := by
  unfold readArrives
  try dsimp only
  repeat' first
    | with_reducible assumption
    | with_reducible refine writeHost_sound ?_
    | with_reducible refine layHost_sound ?_
    | with_reducible refine stWrite_sound ?_
    | with_reducible refine setJob_sound ?_
    | with_reducible refine jobEnd_sound ?_
    | with_reducible refine feedJob_sound ?_
    | intro _
    | split
    | (refine sound_good ?_; dsimp only; refine good_sound ?_)

theorem writeLands_sound {s : State} {r : BmpReq} {j : Job} (h_s : Sound s) :
    Sound (writeLands s r j) := by
  unfold writeLands
  try dsimp only
  repeat' first
    | with_reducible assumption
    | with_reducible refine setJob_sound ?_
    | with_reducible refine jobEnd_sound ?_
    | intro _
    | split
    | (refine sound_good ?_; dsimp only; refine good_sound ?_)

theorem failFetch_sound {s : State} {r : BmpReq} {j : Job} {p : Nat} (h_s : Sound s) :
    Sound (failFetch s r j p) := by
  unfold failFetch
  try dsimp only
  repeat' first
    | with_reducible assumption
    | with_reducible refine raise_sound ?_
    | with_reducible refine setJob_sound ?_
    | intro _
    | split
    | (refine sound_good ?_; dsimp only; refine good_sound ?_)

theorem spoilWrite_sound {s : State} {r : BmpReq} (h_s : Sound s) :
    Sound (spoilWrite s r) := by
  unfold spoilWrite
  try dsimp only
  repeat' first
    | with_reducible assumption
    | with_reducible refine bumpFree_sound ?_
    | with_reducible refine writeHost_sound ?_
    | with_reducible refine layHost_sound ?_
    | intro _
    | split
    | (refine sound_good ?_; dsimp only; refine good_sound ?_)

theorem requestFails_sound {s : State} {r : BmpReq} {code : Nat} (h_s : Sound s) :
    Sound (requestFails s r code) := by
  unfold requestFails
  try dsimp only
  repeat' first
    | with_reducible assumption
    | with_reducible refine raise_sound ?_
    | with_reducible refine setJob_sound ?_
    | with_reducible refine dropJob_sound ?_
    | with_reducible refine failFetch_sound ?_
    | with_reducible refine spoilWrite_sound ?_
    | with_reducible refine uncorrectable_sound ?_
    | intro _
    | split
    | (refine sound_good ?_; dsimp only; refine good_sound ?_)

theorem redoRequest_sound {s : State} {r : BmpReq} {attempts : Nat} (h_s : Sound s) :
    Sound (redoRequest s r attempts) := by
  unfold redoRequest
  try dsimp only
  repeat' first
    | with_reducible assumption
    | intro _
    | split
    | (refine sound_good ?_; dsimp only; refine good_sound ?_)

theorem retireChannel_sound {s : State} {ch : Nat} (h_s : Sound s) :
    Sound (retireChannel s ch) := by
  unfold retireChannel
  try dsimp only
  repeat' first
    | with_reducible assumption
    | with_reducible refine sound_foldl ?_ _ ?_
    | with_reducible refine setChan_sound ?_
    | with_reducible refine unitReclaim_sound ?_
    | with_reducible refine raise_sound ?_
    | with_reducible refine redoRequest_sound ?_
    | intro _
    | split
    | (refine sound_good ?_; dsimp only; refine good_sound ?_)

theorem channelFault_sound {s : State} {ch : Nat} (h_s : Sound s) :
    Sound (channelFault s ch) := by
  unfold channelFault
  try dsimp only
  repeat' first
    | with_reducible assumption
    | with_reducible refine transient_sound ?_
    | with_reducible refine retireChannel_sound ?_
    | intro _
    | split
    | (refine sound_good ?_; dsimp only; refine good_sound ?_)

theorem retryRequest_sound {s : State} {r : BmpReq} (h_s : Sound s) :
    Sound (retryRequest s r) := by
  unfold retryRequest
  try dsimp only
  repeat' first
    | with_reducible assumption
    | with_reducible refine requestFails_sound ?_
    | with_reducible refine redoRequest_sound ?_
    | with_reducible refine channelFault_sound ?_
    | intro _
    | split
    | (refine sound_good ?_; dsimp only; refine good_sound ?_)

theorem streamBack_sound {s : State} {r : BmpReq} (h_s : Sound s) :
    Sound (streamBack s r) := by
  unfold streamBack
  try dsimp only
  repeat' first
    | with_reducible assumption
    | with_reducible refine unitBack_sound ?_
    | intro _
    | split
    | (refine sound_good ?_; dsimp only; refine good_sound ?_)

theorem bmpResponse_sound {s : State} {ch : Nat} {tag : Nat} {code : Nat} {data : List Byte} (h_s : Sound s) :
    Sound (bmpResponse s ch tag code data) := by
  unfold bmpResponse
  try dsimp only
  repeat' first
    | with_reducible assumption
    | with_reducible refine readArrives_sound ?_
    | with_reducible refine writeLands_sound ?_
    | with_reducible refine requestFails_sound ?_
    | with_reducible refine retryRequest_sound ?_
    | with_reducible refine streamBack_sound ?_
    | intro _
    | split
    | (refine sound_good ?_; dsimp only; refine good_sound ?_)

theorem bmpTimeout_sound {s : State} {ch : Nat} {tag : Nat} (h_s : Sound s) :
    Sound (bmpTimeout s ch tag) := by
  unfold bmpTimeout
  try dsimp only
  repeat' first
    | with_reducible assumption
    | with_reducible refine retryRequest_sound ?_
    | with_reducible refine streamBack_sound ?_
    | intro _
    | split
    | (refine sound_good ?_; dsimp only; refine good_sound ?_)

theorem channelDown_sound {s : State} {ch : Nat} (h_s : Sound s) :
    Sound (channelDown s ch) := by
  unfold channelDown
  try dsimp only
  repeat' first
    | with_reducible assumption
    | with_reducible refine retireChannel_sound ?_
    | intro _
    | split
    | (refine sound_good ?_; dsimp only; refine good_sound ?_)

theorem noteMove_sound {s : State} {sl : Slot} (h_s : Sound s) :
    Sound (noteMove s sl) := by
  unfold noteMove
  try dsimp only
  repeat' first
    | with_reducible assumption
    | with_reducible refine raise_sound ?_
    | with_reducible refine raiseOpenPassage_sound ?_
    | with_reducible refine reservedRead_sound ?_
    | intro _
    | split
    | (refine sound_good ?_; dsimp only; refine good_sound ?_)

theorem doMove_sound {s : State} {sl : Slot} (h_s : Sound s) :
    Sound (doMove s sl) := by
  unfold doMove
  try dsimp only
  repeat' first
    | with_reducible assumption
    | with_reducible refine addOp_sound ?_
    | intro _
    | split
    | (refine sound_good ?_; dsimp only; refine good_sound ?_)

theorem moveComplete_sound {s : State} {op : Nat} (h_s : Sound s) :
    Sound (moveComplete s op) := by
  unfold moveComplete
  try dsimp only
  repeat' first
    | with_reducible assumption
    | with_reducible refine finishOp_sound ?_
    | intro _
    | split
    | (refine sound_good ?_; dsimp only; refine good_sound ?_)

end Sys2Proof.Laws
end

