-- ==== Sys2Proof/Laws/SoundBundleIssue.lean ====
section
/-! SUPPORT. The operations of Machine/BundleIssue.lean keep `Sound`. -/

namespace Sys2Proof.Laws

open Sys2Proof.Machine Sys2Proof.Safety

theorem takeStaging_sound {s : State} {sl : Slot} (h_s : Sound s) :
    Sound (takeStaging s sl).1 := by
  unfold takeStaging
  try dsimp only
  repeat' first
    | with_reducible assumption
    | with_reducible refine sound_foldl ?_ _ ?_
    | with_reducible refine sound_foldl_on Prod.fst ?_ _ ?_
    | with_reducible refine holdSlot_sound ?_
    | intro _
    | split
    | (refine sound_good ?_; dsimp only; refine good_sound ?_)

theorem noteSlot_sound {s : State} {sl : Slot} (h_s : Sound s) :
    Sound (noteSlot s sl) := by
  unfold noteSlot
  try dsimp only
  repeat' first
    | with_reducible assumption
    | with_reducible refine noteUpd_sound ?_
    | with_reducible refine noteColl_sound ?_
    | with_reducible refine noteMove_sound ?_
    | with_reducible refine noteRun_sound ?_
    | with_reducible refine noteSend_sound ?_
    | intro _
    | split
    | (refine sound_good ?_; dsimp only; refine good_sound ?_)

theorem noteHold_sound {s : State} {sl : Slot} (h_s : Sound s) :
    Sound (noteHold s sl) := by
  unfold noteHold
  try dsimp only
  repeat' first
    | with_reducible assumption
    | with_reducible refine raiseOncePassage_sound ?_
    | intro _
    | split
    | (refine sound_good ?_; dsimp only; refine good_sound ?_)

theorem noteRunWait_sound {s : State} {sl : Slot} (h_s : Sound s) :
    Sound (noteRunWait s sl) := by
  unfold noteRunWait
  try dsimp only
  repeat' first
    | with_reducible assumption
    | with_reducible refine setVe_sound ?_
    | intro _
    | split
    | (refine sound_good ?_; dsimp only; refine good_sound ?_)

theorem holdAll_sound {s : State} {l : List Slot} (h_s : Sound s) : Sound (holdAll s l).1 := by
  induction l generalizing s with
  | nil => exact h_s
  | cons sl l ih =>
    unfold holdAll
    split
    · exact noteRunWait_sound (noteHold_sound h_s)
    · split
      · dsimp only
        split
        · exact ih (takeStaging_sound h_s)
        · exact takeStaging_sound h_s
      · exact ih h_s

theorem bundleHold_sound {s : State} {slots : List Slot} (h_s : Sound s) :
    Sound (bundleHold s slots).1 := by
  unfold bundleHold
  try dsimp only
  repeat' first
    | with_reducible assumption
    | with_reducible refine holdAll_sound ?_
    | intro _
    | split
    | (refine sound_good ?_; dsimp only; refine good_sound ?_)

theorem acceptSlot_sound {s : State} {sl : Slot} (h_s : Sound s) :
    Sound (acceptSlot s sl) := by
  unfold acceptSlot
  try dsimp only
  repeat' first
    | with_reducible assumption
    | with_reducible refine noteSlot_sound ?_
    | with_reducible refine noteTable_sound ?_
    | with_reducible refine versionSlot_sound ?_
    | intro _
    | split
    | (refine sound_good ?_; dsimp only; refine good_sound ?_)

theorem issueNow_sound {s : State} {p : Nat} {b : Bundle} {slots : List Slot} (h_s : Sound s) :
    Sound (issueNow s p b slots) := by
  unfold issueNow
  try dsimp only
  repeat' first
    | with_reducible assumption
    | with_reducible refine sound_foldl ?_ _ ?_
    | with_reducible refine acceptSlot_sound ?_
    | with_reducible refine setPassage_sound ?_
    | with_reducible refine advance_sound ?_
    | with_reducible refine latchAclk_sound ?_
    | intro _
    | split
    | (refine sound_good ?_; dsimp only; refine good_sound ?_)

theorem holdNow_sound {s : State} {cause : Nat} (h_s : Sound s) :
    Sound (holdNow s cause) := by
  unfold holdNow
  try dsimp only
  repeat' first
    | with_reducible assumption
    | with_reducible refine countLife_sound ?_
    | with_reducible refine countStall_sound ?_
    | with_reducible refine advance_sound ?_
    | intro _
    | split
    | (refine sound_good ?_; dsimp only; refine good_sound ?_)

theorem rampIssue_sound {s : State} {p : Nat} {b : Bundle} {slots : List Slot} (h_s : Sound s) :
    Sound (rampIssue s p b slots) := by
  unfold rampIssue
  try dsimp only
  repeat' first
    | with_reducible assumption
    | with_reducible refine issueNow_sound ?_
    | with_reducible refine holdNow_sound ?_
    | with_reducible refine startRamp_sound ?_
    | intro _
    | split
    | (refine sound_good ?_; dsimp only; refine good_sound ?_)

theorem issueFetched_sound {s : State} {p : Nat} (h_s : Sound s) :
    Sound (issueFetched s p) := by
  unfold issueFetched
  try dsimp only
  repeat' first
    | with_reducible assumption
    | with_reducible refine bundleHold_sound ?_
    | with_reducible refine holdNow_sound ?_
    | with_reducible refine rampIssue_sound ?_
    | with_reducible refine setPassage_sound ?_
    | with_reducible refine raise_sound ?_
    | with_reducible refine noteTable_sound ?_
    | with_reducible refine raiseOncePassage_sound ?_
    | with_reducible refine reservedWrite_sound ?_
    | intro _
    | split
    | (refine sound_good ?_; dsimp only; refine good_sound ?_)

theorem tryIssue_sound {s : State} {p : Nat} (h_s : Sound s) :
    Sound (tryIssue s p) := by
  unfold tryIssue
  try dsimp only
  repeat' first
    | with_reducible assumption
    | with_reducible refine holdNow_sound ?_
    | with_reducible refine issueFetched_sound ?_
    | intro _
    | split
    | (refine sound_good ?_; dsimp only; refine good_sound ?_)

theorem bundleIssue_sound {s : State} (h_s : Sound s) :
    Sound (bundleIssue s) := by
  unfold bundleIssue
  try dsimp only
  repeat' first
    | with_reducible assumption
    | with_reducible refine tryIssue_sound ?_
    | with_reducible refine dueAbort_sound ?_
    | intro _
    | split
    | (refine sound_good ?_; dsimp only; refine good_sound ?_)

theorem gapSlot_sound {s : State} {sl : Slot} (h_s : Sound s) :
    Sound (gapSlot s sl) := by
  unfold gapSlot
  try dsimp only
  repeat' first
    | with_reducible assumption
    | with_reducible refine setPassage_sound ?_
    | intro _
    | split
    | (refine sound_good ?_; dsimp only; refine good_sound ?_)

theorem notifySlot_sound {s : State} {sl : Slot} (h_s : Sound s) :
    Sound (notifySlot s sl) := by
  unfold notifySlot
  try dsimp only
  repeat' first
    | with_reducible assumption
    | with_reducible refine setCore_sound ?_
    | with_reducible refine sampleLevels_sound ?_
    | intro _
    | split
    | (refine sound_good ?_; dsimp only; refine good_sound ?_)

end Sys2Proof.Laws
end

