-- ==== Sys2Proof/Laws/SoundCoreBase.lean ====
section
/-! SUPPORT. The operations of Machine/CoreBase.lean keep `Sound`. -/

namespace Sys2Proof.Laws

open Sys2Proof.Machine Sys2Proof.Safety

theorem coreMemWrite_sound {s : State} {n : Nat} {data : Bool} {a : Nat} {bs : List Byte} (h_s : Sound s) :
    Sound (coreMemWrite s n data a bs) := by
  unfold coreMemWrite
  try dsimp only
  repeat' first
    | with_reducible assumption
    | with_reducible refine setCore_sound ?_
    | intro _
    | split
    | (refine sound_good ?_; dsimp only; refine good_sound ?_)

theorem ccHold_sound {s : State} {n : Nat} (h_s : Sound s) :
    Sound (ccHold s n) := by
  unfold ccHold
  try dsimp only
  repeat' first
    | with_reducible assumption
    | with_reducible refine setCore_sound ?_
    | intro _
    | split
    | (refine sound_good ?_; dsimp only; refine good_sound ?_)

theorem ccRelease_sound {s : State} {n : Nat} (h_s : Sound s) :
    Sound (ccRelease s n) := by
  unfold ccRelease
  try dsimp only
  repeat' first
    | with_reducible assumption
    | with_reducible refine setCore_sound ?_
    | intro _
    | split
    | (refine sound_good ?_; dsimp only; refine good_sound ?_)

theorem windowWrite_sound {s : State} {req : Req} {n : Nat} {off : Nat} {v : Word} (h_s : Sound s) :
    Sound (windowWrite s req n off v) := by
  unfold windowWrite
  try dsimp only
  repeat' first
    | with_reducible assumption
    | with_reducible refine reservedWrite_sound ?_
    | with_reducible refine coreMemWrite_sound ?_
    | intro _
    | split
    | (refine sound_good ?_; dsimp only; refine good_sound ?_)

theorem setScalar_sound {s : State} {n : Nat} {i : Nat} {v : Word} (h_s : Sound s) :
    Sound (setScalar s n i v) := by
  unfold setScalar
  try dsimp only
  repeat' first
    | with_reducible assumption
    | with_reducible refine setCore_sound ?_
    | intro _
    | split
    | (refine sound_good ?_; dsimp only; refine good_sound ?_)

end Sys2Proof.Laws
end

