-- ==== Sys2Proof/Laws/SoundRetire.lean ====
section
/-! SUPPORT. The operations of Machine/Retire.lean keep `Sound`. -/

namespace Sys2Proof.Laws

open Sys2Proof.Machine Sys2Proof.Safety

theorem reclaimArray_sound {s : State} {a : Nat} (h_s : Sound s) :
    Sound (reclaimArray s a) := by
  unfold reclaimArray
  try dsimp only
  repeat' first
    | with_reducible assumption
    | with_reducible refine setVe_sound ?_
    | with_reducible refine unitReclaim_sound ?_
    | with_reducible refine raise_sound ?_
    | intro _
    | split
    | (refine sound_good ?_; dsimp only; refine good_sound ?_)

theorem retireArray_sound {s : State} {p : Nat} {a : Nat} (h_s : Sound s) :
    Sound (retireArray s p a) := by
  unfold retireArray
  try dsimp only
  repeat' first
    | with_reducible assumption
    | with_reducible refine raiseOpen_sound ?_
    | with_reducible refine reclaimArray_sound ?_
    | with_reducible refine substitute_sound ?_
    | with_reducible refine endStep_sound ?_
    | intro _
    | split
    | (refine sound_good ?_; dsimp only; refine good_sound ?_)

theorem resumeAfterFault_sound {s : State} {a : Nat} (h_s : Sound s) :
    Sound (resumeAfterFault s a) := by
  unfold resumeAfterFault
  try dsimp only
  repeat' first
    | with_reducible assumption
    | with_reducible refine raise_sound ?_
    | with_reducible refine resumeArray_sound ?_
    | intro _
    | split
    | (refine sound_good ?_; dsimp only; refine good_sound ?_)

theorem absolve_sound {s : State} {p : Nat} {col : Nat} (h_s : Sound s) :
    Sound (absolve s p col) := by
  unfold absolve
  try dsimp only
  repeat' first
    | with_reducible assumption
    | intro _
    | split
    | (refine sound_good ?_; dsimp only; refine good_sound ?_)

theorem localise_sound {s : State} {p : Nat} {a : Nat} {e : Element} (h_s : Sound s) :
    Sound (localise s p a e) := by
  unfold localise
  try dsimp only
  repeat' first
    | with_reducible assumption
    | with_reducible refine retireArray_sound ?_
    | intro _
    | split
    | (refine sound_good ?_; dsimp only; refine good_sound ?_)

theorem localisationTest_sound {s : State} {p : Nat} {found : Localised} (h_s : Sound s) :
    Sound (localisationTest s p found) := by
  unfold localisationTest
  try dsimp only
  repeat' first
    | with_reducible assumption
    | with_reducible refine heldAclk_sound ?_
    | with_reducible refine retireArray_sound ?_
    | with_reducible refine resumeAfterFault_sound ?_
    | with_reducible refine absolve_sound ?_
    | with_reducible refine localise_sound ?_
    | intro _
    | split
    | (refine sound_good ?_; dsimp only; refine good_sound ?_)

theorem retirementApply_sound {s : State} {p : Nat} (h_s : Sound s) :
    Sound (retirementApply s p) := by
  unfold retirementApply
  try dsimp only
  repeat' first
    | with_reducible assumption
    | with_reducible refine setArray_sound ?_
    | with_reducible refine retireArray_sound ?_
    | with_reducible refine resumeAfterFault_sound ?_
    | with_reducible refine retireElement_sound ?_
    | intro _
    | split
    | (refine sound_good ?_; dsimp only; refine good_sound ?_)

theorem leakyDecay_sound {s : State} {cls : Nat} {index : Nat} (h_s : Sound s) :
    Sound (leakyDecay s cls index) := by
  unfold leakyDecay
  try dsimp only
  repeat' first
    | with_reducible assumption
    | intro _
    | split
    | (refine sound_good ?_; dsimp only; refine good_sound ?_)

theorem spendForced_sound {s : State} {job : Nat} {element : Nat} (h_s : Sound s) :
    Sound (spendForced s job element) := by
  unfold spendForced
  try dsimp only
  repeat' first
    | with_reducible assumption
    | intro _
    | split
    | (refine sound_good ?_; dsimp only; refine good_sound ?_)

theorem scrubQuantum_sound {s : State} {unit : Nat} {bank : Nat} {found : ScrubFinding} (h_s : Sound s) :
    Sound (scrubQuantum s unit bank found) := by
  unfold scrubQuantum
  try dsimp only
  repeat' first
    | with_reducible assumption
    | with_reducible refine transient_sound ?_
    | with_reducible refine spendForced_sound ?_
    | with_reducible refine uncorrectable_sound ?_
    | intro _
    | split
    | (refine sound_good ?_; dsimp only; refine good_sound ?_)

theorem spareSelfTest_sound {s : State} {e : Element} {ok : Bool} (h_s : Sound s) :
    Sound (spareSelfTest s e ok) := by
  unfold spareSelfTest
  try dsimp only
  repeat' first
    | with_reducible assumption
    | with_reducible refine raise_sound ?_
    | with_reducible refine spendForced_sound ?_
    | with_reducible refine retireElement_sound ?_
    | intro _
    | split
    | (refine sound_good ?_; dsimp only; refine good_sound ?_)

theorem sensorQuantum_sound {s : State} {vs : List (BitVec 16)} (h_s : Sound s) :
    Sound (sensorQuantum s vs) := by
  unfold sensorQuantum
  try dsimp only
  repeat' first
    | with_reducible assumption
    | with_reducible refine setSense_sound ?_
    | with_reducible refine spendForced_sound ?_
    | intro _
    | split
    | (refine sound_good ?_; dsimp only; refine good_sound ?_)

theorem forcedSlot_sound {s : State} {job : Nat} {unit : Nat} (h_s : Sound s) :
    Sound (forcedSlot s job unit) := by
  unfold forcedSlot
  try dsimp only
  repeat' first
    | with_reducible assumption
    | with_reducible refine countLife_sound ?_
    | with_reducible refine raise_sound ?_
    | with_reducible refine heldAclk_sound ?_
    | intro _
    | split
    | (refine sound_good ?_; dsimp only; refine good_sound ?_)

/-- The outcome is awaited only in stage 0xA, so the scheduler may run again. -/
theorem rasOutcome_sound {s : State} {req : Req} {commit lockMatch : Bool} (h_s : Sound s) : Sound (rasOutcome s req commit lockMatch) := by
  unfold rasOutcome
  split
  · exact reservedWrite_sound h_s
  · rename_i h
    have hA : s.boot.stage = 10 := h_s.2.2.2.2.1 (by simp at h; simp [h])
    dsimp only
    have key : ∀ t : State, Sound t → t.boot.stage = 10 → ∀ p r q, Sound { t with psc := p, ras := r, rlp := q } := by
      intro t ht h10 p r q
      exact ⟨ht.1, ht.2.1, ht.2.2.1, ht.2.2.2.1, fun _ => h10, ht.2.2.2.2.2⟩
    split
    · exact abortWhenDone_sound (key _ (raise_sound h_s) (by simp [hA]) _ _ _)
    · refine commitStep_sound (sound_foldl ?_ _ (key _ (raise_sound h_s) (by simp [hA]) _ _ _))
      intro t a ht
      split
      · exact ht
      · exact resumeArray_sound ht

theorem retryUpdate_sound {s : State} {req : Req} (h_s : Sound s) :
    Sound (retryUpdate s req) := by
  unfold retryUpdate
  try dsimp only
  repeat' first
    | with_reducible assumption
    | with_reducible refine reservedWrite_sound ?_
    | intro _
    | split
    | (refine sound_good ?_; dsimp only; refine good_sound ?_)

theorem retryGather_sound {s : State} {req : Req} (h_s : Sound s) :
    Sound (retryGather s req) := by
  unfold retryGather
  try dsimp only
  repeat' first
    | with_reducible assumption
    | with_reducible refine sound_foldl ?_ _ ?_
    | with_reducible refine sound_foldl_on Prod.fst ?_ _ ?_
    | with_reducible refine unitBack_sound ?_
    | with_reducible refine raise_sound ?_
    | with_reducible refine reservedWrite_sound ?_
    | with_reducible refine queueFrame_sound ?_
    | with_reducible refine keepJobs_sound ?_
    | intro _
    | split
    | (refine sound_good ?_; dsimp only; refine good_sound ?_)

theorem spareSnap_sound {s : State} (h_s : Sound s) :
    Sound (spareSnap s) := by
  unfold spareSnap
  try dsimp only
  repeat' first
    | with_reducible assumption
    | intro _
    | split
    | (refine sound_good ?_; dsimp only; refine good_sound ?_)

end Sys2Proof.Laws
end

