-- ==== Sys2Proof/Laws/SoundLifetime.lean ====
section
/-! SUPPORT. The operations of Machine/Lifetime.lean keep `Sound`. -/

namespace Sys2Proof.Laws

open Sys2Proof.Machine Sys2Proof.Safety

theorem finishSave_sound {s : State} (h_s : Sound s) :
    Sound (finishSave s) := by
  unfold finishSave
  try dsimp only
  repeat' first
    | with_reducible assumption
    | with_reducible refine raise_sound ?_
    | intro _
    | split
    | (refine sound_good ?_; dsimp only; refine good_sound ?_)

theorem flushLife_sound {s : State} (h_s : Sound s) :
    Sound (flushLife s) := by
  unfold flushLife
  try dsimp only
  repeat' first
    | with_reducible assumption
    | intro _
    | split
    | (refine sound_good ?_; dsimp only; refine good_sound ?_)

theorem lifetimeFlush_sound {s : State} (h_s : Sound s) :
    Sound (lifetimeFlush s) := by
  unfold lifetimeFlush
  try dsimp only
  repeat' first
    | with_reducible assumption
    | with_reducible refine finishSave_sound ?_
    | with_reducible refine flushLife_sound ?_
    | with_reducible refine spendForced_sound ?_
    | intro _
    | split
    | (refine sound_good ?_; dsimp only; refine good_sound ?_)

theorem lifeSave_sound {s : State} {req : Req} (h_s : Sound s) :
    Sound (lifeSave s req) := by
  unfold lifeSave
  try dsimp only
  repeat' first
    | with_reducible assumption
    | with_reducible refine reservedWrite_sound ?_
    | intro _
    | split
    | (refine sound_good ?_; dsimp only; refine good_sound ?_)

theorem snapshot_sound {s : State} {sense : List (BitVec 16)} (h_s : Sound s) :
    Sound (snapshot s sense) := by
  unfold snapshot
  try dsimp only
  repeat' first
    | with_reducible assumption
    | with_reducible refine setSense_sound ?_
    | with_reducible refine putJob_sound ?_
    | with_reducible refine spendForced_sound ?_
    | intro _
    | split
    | (refine sound_good ?_; dsimp only; refine good_sound ?_)

theorem histogramSecond_sound {s : State} {t16 : Int} {mv : CoreSupply} (h_s : Sound s) :
    Sound (histogramSecond s t16 mv) := by
  unfold histogramSecond
  try dsimp only
  repeat' first
    | with_reducible assumption
    | intro _
    | split
    | (refine sound_good ?_; dsimp only; refine good_sound ?_)

end Sys2Proof.Laws
end

