-- ==== Sys2Proof/Laws/SoundPower.lean ====
section
/-! SUPPORT. The operations of Machine/Power.lean keep `Sound`. -/

namespace Sys2Proof.Laws

open Sys2Proof.Machine Sys2Proof.Safety

theorem capStrobe_sound {s : State} {cap : BitVec 10} (h_s : Sound s) :
    Sound (capStrobe s cap) := by
  unfold capStrobe
  try dsimp only
  repeat' first
    | with_reducible assumption
    | with_reducible refine raise_sound ?_
    | intro _
    | split
    | (refine sound_good ?_; dsimp only; refine good_sound ?_)

theorem powerWindow_sound {s : State} {est : Nat} (h_s : Sound s) :
    Sound (powerWindow s est) := by
  unfold powerWindow
  try dsimp only
  repeat' first
    | with_reducible assumption
    | with_reducible refine raise_sound ?_
    | intro _
    | split
    | (refine sound_good ?_; dsimp only; refine good_sound ?_)

theorem droopFall_sound {s : State} (h_s : Sound s) :
    Sound (droopFall s) := by
  unfold droopFall
  try dsimp only
  repeat' first
    | with_reducible assumption
    | with_reducible refine countLife_sound ?_
    | with_reducible refine raise_sound ?_
    | intro _
    | split
    | (refine sound_good ?_; dsimp only; refine good_sound ?_)

theorem droopRise_sound {s : State} (h_s : Sound s) :
    Sound (droopRise s) := by
  unfold droopRise
  try dsimp only
  repeat' first
    | with_reducible assumption
    | with_reducible refine ackRamp_sound ?_
    | with_reducible refine startRamp_sound ?_
    | intro _
    | split
    | (refine sound_good ?_; dsimp only; refine good_sound ?_)

theorem rampStep_sound {s : State} (h_s : Sound s) :
    Sound (rampStep s) := by
  unfold rampStep
  try dsimp only
  repeat' first
    | with_reducible assumption
    | intro _
    | split
    | (refine sound_good ?_; dsimp only; refine good_sound ?_)

theorem rampAck_sound {s : State} (h_s : Sound s) :
    Sound (rampAck s) := by
  unfold rampAck
  try dsimp only
  repeat' first
    | with_reducible assumption
    | with_reducible refine ackRamp_sound ?_
    | intro _
    | split
    | (refine sound_good ?_; dsimp only; refine good_sound ?_)

theorem rampTimeout_sound {s : State} (h_s : Sound s) :
    Sound (rampTimeout s) := by
  unfold rampTimeout
  try dsimp only
  repeat' first
    | with_reducible assumption
    | with_reducible refine raise_sound ?_
    | with_reducible refine beginRamp_sound ?_
    | intro _
    | split
    | (refine sound_good ?_; dsimp only; refine good_sound ?_)

end Sys2Proof.Laws
end

