-- ==== Sys2Proof/Laws/SoundRegisters.lean ====
section
/-! SUPPORT. The operations of Machine/Registers.lean keep `Sound`. -/

namespace Sys2Proof.Laws

open Sys2Proof.Machine Sys2Proof.Safety

theorem readAccess_sound {s : State} {req : Req} {a : Nat} (h_s : Sound s) :
    Sound (readAccess s req a) := by
  unfold readAccess
  try dsimp only
  repeat' first
    | with_reducible assumption
    | with_reducible refine setReq_sound ?_
    | intro _
    | split
    | (refine sound_good ?_; dsimp only; refine good_sound ?_)

theorem applyGroups_sound {s : State} {mask : Nat} {pin : Bool} (h_s : Sound s) :
    Sound (applyGroups s mask pin) := by
  unfold applyGroups
  try dsimp only
  repeat' first
    | with_reducible assumption
    | with_reducible refine sound_foldl ?_ _ ?_
    | with_reducible refine sound_foldl_on Prod.fst ?_ _ ?_
    | with_reducible refine bumpFree_sound ?_
    | with_reducible refine setLive_sound ?_
    | intro _
    | split
    | (refine sound_good ?_; dsimp only; refine good_sound ?_)

theorem pinReserved_sound {s : State} (h_s : Sound s) :
    Sound (pinReserved s) := by
  unfold pinReserved
  try dsimp only
  repeat' first
    | with_reducible assumption
    | with_reducible refine reservedWrite_sound ?_
    | intro _
    | split
    | (refine sound_good ?_; dsimp only; refine good_sound ?_)

theorem aplApply_sound {s : State} {req : Req} {mask : Nat} {w : ApplyWrite} (h_s : Sound s) :
    Sound (aplApply s req mask w) := by
  unfold aplApply
  try dsimp only
  repeat' first
    | with_reducible assumption
    | with_reducible refine reservedWrite_sound ?_
    | with_reducible refine applyGroups_sound ?_
    | with_reducible refine pinReserved_sound ?_
    | intro _
    | split
    | (refine sound_good ?_; dsimp only; refine good_sound ?_)

theorem applyPin_sound {s : State} (h_s : Sound s) :
    Sound (applyPin s) := by
  unfold applyPin
  try dsimp only
  repeat' first
    | with_reducible assumption
    | with_reducible refine applyGroups_sound ?_
    | with_reducible refine pinReserved_sound ?_
    | intro _
    | split
    | (refine sound_good ?_; dsimp only; refine good_sound ?_)

theorem lockSet_sound {s : State} (h_s : Sound s) :
    Sound (lockSet s) := by
  unfold lockSet
  try dsimp only
  repeat' first
    | with_reducible assumption
    | with_reducible refine setLive_sound ?_
    | with_reducible refine checkReady_sound ?_
    | intro _
    | split
    | (refine sound_good ?_; dsimp only; refine good_sound ?_)

theorem oneReserved_sound {s : State} {t : State} {req : Req} {a : Nat} {bad : Bool} (h_s : Sound s) (h_t : Sound t) :
    Sound (oneReserved s t req a bad) := by
  unfold oneReserved
  try dsimp only
  repeat' first
    | with_reducible assumption
    | with_reducible refine reservedWrite_sound ?_
    | intro _
    | split
    | (refine sound_good ?_; dsimp only; refine good_sound ?_)

theorem plainWrite_sound {s : State} {req : Req} {a : Nat} {v : Nat} {r : RegRow} (h_s : Sound s) :
    Sound (plainWrite s req a v r) := by
  unfold plainWrite
  try dsimp only
  repeat' first
    | with_reducible assumption
    | with_reducible refine setLive_sound ?_
    | with_reducible refine setShadow_sound ?_
    | with_reducible refine sampleLevels_sound ?_
    | with_reducible refine oneReserved_sound ?_ ?_
    | intro _
    | split
    | (refine sound_good ?_; dsimp only; refine good_sound ?_)

theorem pscVersionWrite_sound {s : State} {req : Req} {v : Nat} (h_s : Sound s) :
    Sound (pscVersionWrite s req v) := by
  unfold pscVersionWrite
  try dsimp only
  repeat' first
    | with_reducible assumption
    | with_reducible refine versionRegister_sound ?_
    | intro _
    | split
    | (refine sound_good ?_; dsimp only; refine good_sound ?_)

theorem mbxValue_sound {s : State} {req : Req} {hi : Bool} {v : Word} (h_s : Sound s) :
    Sound (mbxValue s req hi v) := by
  unfold mbxValue
  try dsimp only
  repeat' first
    | with_reducible assumption
    | with_reducible refine setReq_sound ?_
    | intro _
    | split
    | (refine sound_good ?_; dsimp only; refine good_sound ?_)

theorem runWrite_sound {s : State} {v : Nat} (h_s : Sound s) :
    Sound (runWrite s v) := by
  unfold runWrite
  try dsimp only
  repeat' first
    | with_reducible assumption
    | with_reducible refine runSet_sound ?_
    | intro _
    | split
    | (refine sound_good ?_; dsimp only; refine good_sound ?_)
    | (refine sound_good ?_; dsimp only; refine good_less ?_ (by simp) (by simp) (by simp))

theorem bootCtrl_sound {s : State} {req : Req} {v : Nat} (h_s : Sound s) :
    Sound (bootCtrl s req v) := by
  unfold bootCtrl
  try dsimp only
  repeat' first
    | with_reducible assumption
    | with_reducible refine sparesDone_sound ?_
    | with_reducible refine lifeDone_sound ?_
    | with_reducible refine oneReserved_sound ?_ ?_
    | intro _
    | split
    | (refine sound_good ?_; dsimp only; refine good_sound ?_)

theorem retryWrite_sound {s : State} {req : Req} {v : Nat} (h_s : Sound s) :
    Sound (retryWrite s req v) := by
  unfold retryWrite
  try dsimp only
  repeat' first
    | with_reducible assumption
    | with_reducible refine oneReserved_sound ?_ ?_
    | with_reducible refine retryUpdate_sound ?_
    | with_reducible refine retryGather_sound ?_
    | intro _
    | split
    | (refine sound_good ?_; dsimp only; refine good_sound ?_)

theorem opt_ite {c : Prop} [Decidable c] {a b : Option State} (ha : ∀ t, a = some t → Sound t) (hb : ∀ t, b = some t → Sound t) :
    ∀ t, (if c then a else b) = some t → Sound t := by
  split
  · exact ha
  · exact hb
theorem opt_some {a : State} (ha : Sound a) : ∀ t, some a = some t → Sound t := fun _ h => Option.some.inj h ▸ ha
theorem opt_none : ∀ t, (none : Option State) = some t → Sound t := fun t h => absurd h (Option.some_ne_none t).symm
theorem if_sound {c : Prop} [Decidable c] {a b : State} (ha : Sound a) (hb : Sound b) : Sound (if c then a else b) := by
  split
  · exact ha
  · exact hb
theorem trigger_sound {s : State} {req : Req} {a v : Nat} (h_s : Sound s) : ∀ t, trigger s req a v = some t → Sound t := by
  unfold trigger
  dsimp only
  repeat' first | with_reducible refine opt_ite ?_ ?_ | with_reducible exact opt_none | with_reducible refine opt_some ?_ | with_reducible refine if_sound ?_ ?_
  all_goals first
    | with_reducible exact bootCtrl_sound h_s | with_reducible exact aplApply_sound h_s | with_reducible exact lockSet_sound h_s | with_reducible exact h_s
    | with_reducible exact imgSwap_sound (if_sound (imgLoad_sound h_s) h_s) | with_reducible exact imgLoad_sound h_s | with_reducible exact runWrite_sound h_s
    | with_reducible exact pscResolve_sound h_s | with_reducible exact pscVersionWrite_sound h_s | with_reducible exact preempt_sound h_s | with_reducible exact govStateWrite_sound h_s
    | with_reducible exact intSrcWrite_sound h_s | with_reducible exact intSwset_sound h_s | with_reducible exact intSwclr_sound h_s | with_reducible exact intAck_sound h_s
    | with_reducible exact intEoi_sound h_s | with_reducible exact evtTail_sound h_s | with_reducible exact evtLatch_sound h_s | with_reducible exact mbxOpen_sound h_s
    | with_reducible exact mbxPost_sound h_s | with_reducible exact mbxValue_sound h_s | with_reducible exact mbxSnap_sound h_s | with_reducible exact rasOutcome_sound h_s
    | with_reducible exact retryWrite_sound h_s | with_reducible exact spareSnap_sound h_s | with_reducible exact lifeSave_sound h_s | with_reducible exact ccHold_sound h_s
    | with_reducible exact ccRelease_sound h_s | with_reducible exact setScalar_sound h_s

theorem writeReg_sound {s : State} {req : Req} {a : Nat} {v : Word} (h_s : Sound s) :
    Sound (writeReg s req a v) := by
  unfold writeReg
  try dsimp only
  repeat' first
    | with_reducible assumption
    | with_reducible refine reservedWrite_sound ?_
    | with_reducible refine spareWrite_sound ?_
    | with_reducible refine lifeWrite_sound ?_
    | with_reducible refine windowWrite_sound ?_
    | with_reducible refine oneReserved_sound ?_ ?_
    | with_reducible refine plainWrite_sound ?_
    | with_reducible refine trigger_sound ?_ _ ‹_›
    | intro _
    | split

theorem regWrite_sound {s : State} {req : Req} {a : Nat} {be : BitVec 4} {v : Word} (h_s : Sound s) :
    Sound (regWrite s req a be v) := by
  unfold regWrite
  try dsimp only
  repeat' first
    | with_reducible assumption
    | with_reducible refine reservedWrite_sound ?_
    | with_reducible refine writeReg_sound ?_
    | intro _
    | split
    | (refine sound_good ?_; dsimp only; refine good_sound ?_)

end Sys2Proof.Laws
end

