-- ==== Sys2Proof/Laws/SoundControlCore.lean ====
section
/-! SUPPORT. The operations of Machine/ControlCore.lean keep `Sound`. -/

namespace Sys2Proof.Laws

open Sys2Proof.Machine Sys2Proof.Safety

theorem retire_sound {s : State} {n : Nat} {next : Word} {csr : Nat} {f : Core → Core} (h_s : Sound s) :
    Sound (retire s n next csr f) := by
  unfold retire
  try dsimp only
  repeat' first
    | with_reducible assumption
    | with_reducible refine setCore_sound ?_
    | intro _
    | split
    | (refine sound_good ?_; dsimp only; refine good_sound ?_)

theorem coreTick_sound {s : State} {n : Nat} {csr : Nat} (h_s : Sound s) :
    Sound (coreTick s n csr) := by
  unfold coreTick
  try dsimp only
  repeat' first
    | with_reducible assumption
    | with_reducible refine bumpFree_sound ?_
    | with_reducible refine setCore_sound ?_
    | intro _
    | split
    | (refine sound_good ?_; dsimp only; refine good_sound ?_)

theorem trapCore_sound {s : State} {n : Nat} {cause : Nat} {tval : Word} (h_s : Sound s) :
    Sound (trapCore s n cause tval) := by
  unfold trapCore
  try dsimp only
  repeat' first
    | with_reducible assumption
    | with_reducible refine setCore_sound ?_
    | with_reducible refine raise_sound ?_
    | intro _
    | split
    | (refine sound_good ?_; dsimp only; refine good_sound ?_)

theorem illegal_sound {s : State} {n : Nat} {w : Nat} (h_s : Sound s) :
    Sound (illegal s n w) := by
  unfold illegal
  try dsimp only
  repeat' first
    | with_reducible assumption
    | with_reducible refine trapCore_sound ?_
    | intro _
    | split
    | (refine sound_good ?_; dsimp only; refine good_sound ?_)

theorem coreLoad_sound {s : State} {n : Fin 4} {next : Word} {rd : Nat} {a : Nat} {k : Nat} {sgn : Bool} (h_s : Sound s) :
    Sound (coreLoad s n next rd a k sgn) := by
  unfold coreLoad
  try dsimp only
  repeat' first
    | with_reducible assumption
    | with_reducible refine retire_sound ?_
    | with_reducible refine trapCore_sound ?_
    | with_reducible refine readAccess_sound ?_
    | intro _
    | split
    | (refine sound_good ?_; dsimp only; refine good_sound ?_)

theorem coreStore_sound {s : State} {n : Fin 4} {next : Word} {a : Nat} {k : Nat} {v : Word} (h_s : Sound s) :
    Sound (coreStore s n next a k v) := by
  unfold coreStore
  try dsimp only
  repeat' first
    | with_reducible assumption
    | with_reducible refine retire_sound ?_
    | with_reducible refine trapCore_sound ?_
    | with_reducible refine portAccess_sound ?_ ?_
    | with_reducible refine writeReg_sound ?_
    | with_reducible refine coreMemWrite_sound ?_
    | intro _
    | split
    | (refine sound_good ?_; dsimp only; refine good_sound ?_)

theorem csrOp_sound {s : State} {n : Nat} {next : Word} {w : Nat} {word : Nat} (h_s : Sound s) :
    Sound (csrOp s n next w word) := by
  unfold csrOp
  try dsimp only
  repeat' first
    | with_reducible assumption
    | with_reducible refine retire_sound ?_
    | with_reducible refine illegal_sound ?_
    | intro _
    | split
    | (refine sound_good ?_; dsimp only; refine good_sound ?_)

theorem coreZsrd_sound {s : State} {n : Nat} {next : Word} {rd : Nat} {i : Nat} (h_s : Sound s) :
    Sound (coreZsrd s n next rd i) := by
  unfold coreZsrd
  try dsimp only
  repeat' first
    | with_reducible assumption
    | with_reducible refine retire_sound ?_
    | intro _
    | split
    | (refine sound_good ?_; dsimp only; refine good_sound ?_)

theorem coreZswr_sound {s : State} {n : Nat} {next : Word} {rs1 : Nat} {i : Nat} (h_s : Sound s) :
    Sound (coreZswr s n next rs1 i) := by
  unfold coreZswr
  try dsimp only
  repeat' first
    | with_reducible assumption
    | with_reducible refine retire_sound ?_
    | with_reducible refine setScalar_sound ?_
    | intro _
    | split
    | (refine sound_good ?_; dsimp only; refine good_sound ?_)

theorem coreZnpop_sound {s : State} {n : Nat} {next : Word} {rd : Nat} (h_s : Sound s) :
    Sound (coreZnpop s n next rd) := by
  unfold coreZnpop
  try dsimp only
  repeat' first
    | with_reducible assumption
    | with_reducible refine retire_sound ?_
    | with_reducible refine setCore_sound ?_
    | with_reducible refine sampleLevels_sound ?_
    | intro _
    | split
    | (refine sound_good ?_; dsimp only; refine good_sound ?_)

theorem coreZncnt_sound {s : State} {n : Nat} {next : Word} {rd : Nat} (h_s : Sound s) :
    Sound (coreZncnt s n next rd) := by
  unfold coreZncnt
  try dsimp only
  repeat' first
    | with_reducible assumption
    | with_reducible refine retire_sound ?_
    | intro _
    | split
    | (refine sound_good ?_; dsimp only; refine good_sound ?_)

theorem coreZres_sound {s : State} {n : Nat} {next : Word} {rs1 : Nat} {word : Nat} (h_s : Sound s) :
    Sound (coreZres s n next rs1 word) := by
  unfold coreZres
  try dsimp only
  repeat' first
    | with_reducible assumption
    | with_reducible refine retire_sound ?_
    | with_reducible refine illegal_sound ?_
    | with_reducible refine resolveCond_sound ?_
    | intro _
    | split
    | (refine sound_good ?_; dsimp only; refine good_sound ?_)

theorem coreZevt_sound {s : State} {n : Nat} {next : Word} {rs1 : Nat} {rs2 : Nat} {word : Nat} (h_s : Sound s) :
    Sound (coreZevt s n next rs1 rs2 word) := by
  unfold coreZevt
  try dsimp only
  repeat' first
    | with_reducible assumption
    | with_reducible refine retire_sound ?_
    | with_reducible refine illegal_sound ?_
    | with_reducible refine raise_sound ?_
    | intro _
    | split
    | (refine sound_good ?_; dsimp only; refine good_sound ?_)

theorem coreZcnt_sound {s : State} {n : Nat} {next : Word} {rs1 : Nat} {i : Nat} (h_s : Sound s) :
    Sound (coreZcnt s n next rs1 i) := by
  unfold coreZcnt
  try dsimp only
  repeat' first
    | with_reducible assumption
    | with_reducible refine retire_sound ?_
    | intro _
    | split
    | (refine sound_good ?_; dsimp only; refine good_sound ?_)

theorem customOp_sound {s : State} {n : Nat} {next : Word} {w : Nat} (h_s : Sound s) :
    Sound (customOp s n next w) := by
  unfold customOp
  try dsimp only
  repeat' first
    | with_reducible assumption
    | with_reducible refine illegal_sound ?_
    | with_reducible refine coreZsrd_sound ?_
    | with_reducible refine coreZswr_sound ?_
    | with_reducible refine coreZnpop_sound ?_
    | with_reducible refine coreZncnt_sound ?_
    | with_reducible refine coreZres_sound ?_
    | with_reducible refine coreZevt_sound ?_
    | with_reducible refine coreZcnt_sound ?_
    | intro _
    | split
    | (refine sound_good ?_; dsimp only; refine good_sound ?_)

theorem systemOp_sound {s : State} {n : Nat} {next : Word} {w : Nat} {word : Nat} (h_s : Sound s) :
    Sound (systemOp s n next w word) := by
  unfold systemOp
  try dsimp only
  repeat' first
    | with_reducible assumption
    | with_reducible refine retire_sound ?_
    | with_reducible refine trapCore_sound ?_
    | with_reducible refine illegal_sound ?_
    | with_reducible refine setCore_sound ?_
    | intro _
    | split
    | (refine sound_good ?_; dsimp only; refine good_sound ?_)

theorem coreExec_sound {s : State} {n : Fin 4} {w : Nat} {word : Nat} {next : Word} (h_s : Sound s) :
    Sound (coreExec s n w word next) := by
  unfold coreExec
  try dsimp only
  repeat' first
    | with_reducible assumption
    | with_reducible refine retire_sound ?_
    | with_reducible refine illegal_sound ?_
    | with_reducible refine coreLoad_sound ?_
    | with_reducible refine coreStore_sound ?_
    | with_reducible refine csrOp_sound ?_
    | with_reducible refine customOp_sound ?_
    | with_reducible refine systemOp_sound ?_
    | intro _
    | split
    | (refine sound_good ?_; dsimp only; refine good_sound ?_)

theorem coreStep_sound {s : State} {n : Fin 4} {mem : CoreMemory} (h_s : Sound s) :
    Sound (coreStep s n mem) := by
  unfold coreStep
  try dsimp only
  repeat' first
    | with_reducible assumption
    | with_reducible refine coreTick_sound ?_
    | with_reducible refine trapCore_sound ?_
    | with_reducible refine illegal_sound ?_
    | with_reducible refine coreExec_sound ?_
    | intro _
    | split
    | (refine sound_good ?_; dsimp only; refine good_sound ?_)

theorem ccInstruction_sound {s : State} {n : Fin 4} {mem : CoreMemory} (h_s : Sound s) :
    Sound (ccInstruction s n mem) := by
  unfold ccInstruction
  split
  · exact coreStep_sound (transient_sound h_s)
  · exact coreStep_sound h_s

theorem ccInterrupt_sound {s : State} {n : Nat} (h_s : Sound s) :
    Sound (ccInterrupt s n) := by
  unfold ccInterrupt
  try dsimp only
  repeat' first
    | with_reducible assumption
    | with_reducible refine setCore_sound ?_
    | intro _
    | split
    | (refine sound_good ?_; dsimp only; refine good_sound ?_)

theorem zCommand_sound {s : State} {n : Nat} {f : Word → State} (h_s : Sound s) (h_f : ∀ w, Sound (f w)) : Sound (zCommand s n f) := by
  unfold zCommand
  split
  · exact h_s
  · exact coreTick_sound (h_f _)

end Sys2Proof.Laws
end

