-- ==== Sys2Proof/Laws/SoundTestWrapper.lean ====
section
/-! SUPPORT. The operations of Machine/TestWrapper.lean keep `Sound`. -/

namespace Sys2Proof.Laws

open Sys2Proof.Machine Sys2Proof.Safety

theorem wrapSelect_sound {s : State} {wir : BitVec 8} {shown : BitVec 8192} (h_s : Sound s) :
    Sound (wrapSelect s wir shown) := by
  unfold wrapSelect
  try dsimp only
  repeat' first
    | with_reducible assumption
    | intro _
    | split
    | (refine sound_good ?_; dsimp only; refine good_sound ?_)

theorem bypass_sound {s : State} {code : BitVec 8} (h_s : Sound s) :
    Sound (bypass s code) := by
  unfold bypass
  try dsimp only
  repeat' first
    | with_reducible assumption
    | with_reducible refine wrapSelect_sound ?_
    | intro _
    | split
    | (refine sound_good ?_; dsimp only; refine good_sound ?_)

theorem underTest_sound {s : State} {f : State → State} (h_s : Sound s) (h_f : ∀ t, Sound t → Sound (f t)) :
    Sound (underTest s f) := by
  unfold underTest
  try dsimp only
  repeat' first
    | with_reducible assumption
    | refine h_f _ ?_
    | with_reducible refine bypass_sound ?_
    | intro _
    | split
    | (refine sound_good ?_; dsimp only; refine good_sound ?_)

theorem sampleWrst_sound {s : State} (h_s : Sound s) :
    Sound (sampleWrst s) := by
  unfold sampleWrst
  try dsimp only
  repeat' first
    | with_reducible assumption
    | with_reducible refine bypass_sound ?_
    | with_reducible refine bumpFree_sound ?_
    | intro _
    | split
    | (refine sound_good ?_; dsimp only; refine good_sound ?_)

theorem wrapScan_sound {s : State} {wir : BitVec 8} (h_s : Sound s) :
    Sound (wrapScan s wir) := by
  unfold wrapScan
  try dsimp only
  repeat' first
    | with_reducible assumption
    | with_reducible refine wrapSelect_sound ?_
    | with_reducible refine bumpFree_sound ?_
    | intro _
    | split
    | (refine sound_good ?_; dsimp only; refine good_sound ?_)

theorem wrapExtest_sound {s : State} (h_s : Sound s) :
    Sound (wrapExtest s) := by
  unfold wrapExtest
  try dsimp only
  repeat' first
    | with_reducible assumption
    | with_reducible refine wrapScan_sound ?_
    | with_reducible refine bumpFree_sound ?_
    | intro _
    | split
    | (refine sound_good ?_; dsimp only; refine good_sound ?_)

theorem wrapMbist_sound {s : State} (h_s : Sound s) :
    Sound (wrapMbist s) := by
  unfold wrapMbist
  try dsimp only
  repeat' first
    | with_reducible assumption
    | with_reducible refine wrapSelect_sound ?_
    | with_reducible refine bumpFree_sound ?_
    | intro _
    | split
    | (refine sound_good ?_; dsimp only; refine good_sound ?_)

theorem wrapFuseRead_sound {s : State} (h_s : Sound s) :
    Sound (wrapFuseRead s) := by
  unfold wrapFuseRead
  try dsimp only
  repeat' first
    | with_reducible assumption
    | with_reducible refine wrapSelect_sound ?_
    | intro _
    | split
    | (refine sound_good ?_; dsimp only; refine good_sound ?_)

theorem wrapFuseProg_sound {s : State} {bits : BitVec 8192} {vddFuse : Bool} (h_s : Sound s) :
    Sound (wrapFuseProg s bits vddFuse) := by
  unfold wrapFuseProg
  try dsimp only
  repeat' first
    | with_reducible assumption
    | with_reducible refine wrapSelect_sound ?_
    | intro _
    | split
    | (refine sound_good ?_; dsimp only; refine good_sound ?_)

theorem wrapId_sound {s : State} (h_s : Sound s) :
    Sound (wrapId s) := by
  unfold wrapId
  try dsimp only
  repeat' first
    | with_reducible assumption
    | with_reducible refine wrapSelect_sound ?_
    | intro _
    | split
    | (refine sound_good ?_; dsimp only; refine good_sound ?_)

theorem wrapInstr_sound {s : State} {code : BitVec 8} {bits : BitVec 8192} {vddFuse : Bool} (h_s : Sound s) :
    Sound (wrapInstr s code bits vddFuse) := by
  unfold wrapInstr
  try dsimp only
  repeat' first
    | with_reducible assumption
    | with_reducible refine bypass_sound ?_
    | with_reducible refine underTest_sound ?_ ?_
    | with_reducible refine wrapScan_sound ?_
    | with_reducible refine wrapExtest_sound ?_
    | with_reducible refine wrapMbist_sound ?_
    | with_reducible refine wrapFuseRead_sound ?_
    | with_reducible refine wrapFuseProg_sound ?_
    | with_reducible refine wrapId_sound ?_
    | intro _
    | split
    | (refine sound_good ?_; dsimp only; refine good_sound ?_)

end Sys2Proof.Laws
end

