-- ==== Sys2Proof/Laws/SoundIdle.lean ====
section
/-! SUPPORT. The operations of Machine/Idle.lean keep `Sound`. -/

namespace Sys2Proof.Laws

open Sys2Proof.Machine Sys2Proof.Safety

theorem passTime_sound {s : State} {ns : Nat} (h_s : Sound s) :
    Sound (passTime s ns) := by
  unfold passTime
  try dsimp only
  repeat' first
    | with_reducible assumption
    | with_reducible refine countLife_sound ?_
    | intro _
    | split
    | (refine sound_good ?_; dsimp only; refine good_sound ?_)

theorem idleTick_sound {s : State} (h_s : Sound s) :
    Sound (idleTick s) := by
  unfold idleTick
  try dsimp only
  repeat' first
    | with_reducible assumption
    | with_reducible refine sampleWrst_sound ?_
    | with_reducible refine bumpFree_sound ?_
    | with_reducible refine countLife_sound ?_
    | with_reducible refine countStall_sound ?_
    | with_reducible refine advance_sound ?_
    | with_reducible refine passTime_sound ?_
    | with_reducible refine dueAbort_sound ?_
    | intro _
    | split
    | (refine sound_good ?_; dsimp only; refine good_sound ?_)

end Sys2Proof.Laws
end

