-- ==== Sys2Proof/Tests/Slice0.lean ====
section
/-! SUPPORT. The model's own tests: what `Instr.wf` refuses, one small result per kind of command, and for every
statement with hypotheses a state and operands that meet those of each of its clauses. -/

namespace Sys2Proof.Tests

set_option Elab.async false

open Sys2Proof.Machine Sys2Proof.Safety

/-! What `Instr.wf` refuses. -/

def someFuses : FuseRead := { bits := 0, crcOk := true, dieId := 7, trims := [1, 2, 3, 4], retired := [] }

theorem test_wf_refuses_short_trims : Instr.wf (.fuseStageComplete { someFuses with trims := [1] }) = false := by decide
theorem test_wf_refuses_fuse_element :
    Instr.wf (.fuseStageComplete { someFuses with retired := [{ array := 72, isCol := true, index := 0 }] }) = false := by decide
theorem test_wf_refuses_byte_address :
    Instr.wf (.registerWrite 0 5 0xF 0) = false ∧ Instr.wf (.coherentLowRead 0 2) = false ∧
      Instr.wf (.spareRecordRestoreWrite 0 1 0) = false ∧ Instr.wf (.lifeRecordRestoreWrite 0 3 0) = false ∧
      Instr.wf (.ccWindowWrite 0 0 6 0) = false := by decide
theorem test_wf_refuses_findings :
    Instr.wf (.bistComplete [.element { array := 0, isCol := false, index := 264 }]) = false ∧
      Instr.wf (.bistComplete [.wholeArray 72]) = false ∧ Instr.wf (.bistComplete [.memory .sump 8]) = false := by decide
theorem test_wf_refuses_short_sense :
    Instr.wf (.sensorCalibrationComplete true []) = false ∧ Instr.wf (.sensorCalibrationQuantum [0]) = false := by decide
theorem test_wf_refuses_no_channel : Instr.wf (.negotiationStart 0 1) = false := by decide
theorem test_wf_refuses_chunks :
    Instr.wf (.residueCheck { array := 64, row := 0, col := 0, seg := 0 } 0) = false ∧
      Instr.wf (.residueCheck { array := 0, row := 2 ^ 28, col := 0, seg := 0 } 0) = false ∧
      Instr.wf (.chunkPromote { array := 0, row := 0, col := 256, seg := 0 }) = false ∧
      Instr.wf (.chunkPromote { array := 0, row := 0, col := 0, seg := 256 }) = false := by decide
theorem test_wf_refuses_part_beats :
    Instr.wf (.bmpResponse 0 0 0 [1]) = false ∧ Instr.wf (.receiveSparseList 0 false [1]) = false ∧
      Instr.wf (.receiveDensePartial 0 false [1]) = false ∧ Instr.wf (.receiveGatherTile 0 false [1]) = false ∧
      Instr.wf (.receiveStatistics 0 false [1]) = false ∧ Instr.wf (.receiveAbortNotice 0 false [1]) = false ∧
      Instr.wf (.receiveOutcome 0 false [1]) = false := by decide
theorem test_wf_refuses_no_array :
    Instr.wf (.localisationTest 72 .sound) = false ∧ Instr.wf (.retirementApply 72) = false ∧ Instr.wf (.scrubQuantum 9 0 .clean) = false ∧
      Instr.wf (.spareColumnSelfTest { array := 72, isCol := false, index := 0 } true) = false := by decide
theorem test_wf_accepts :
    Instr.wf (.fuseStageComplete someFuses) = true ∧ Instr.wf (.registerWrite 4 0xFFFFFC 0xF 0) = true ∧
      Instr.wf (.chunkPromote { array := 63, row := 2 ^ 28 - 1, col := 255, seg := 255 }) = true := by decide

/-! Small states. -/

/-- Consecutive bytes of a memory. -/
def bytesAt (a : Nat) (bs : List Byte) : Mem := ((List.range bs.length).map (· + a)).zip bs
/-- A Z8 block with `rst_n` high in a stage. -/
def z8 (stage : BitVec 4) : State :=
  let s := State.atReset { cls := .z8, lanes := 64, rev := 0, dieId := 0, fuseMap := [], fuseBits := 0 }
    { rstN := true, testEn := false, applyOut := false, droopN := true, capStb := false, rampReq := false, rampAck := false,
      irqIdle := 0, cap := 0, laneUp := 0, rlpHost := 0, chanUp := 0 } [] [] 0 []
  { s with boot := { s.boot with stage := stage } }
def z64 (stage : BitVec 4) : State := { z8 stage with silicon := { (z8 stage).silicon with cls := .z64 } }
/-- A record that waits at a source. -/
def someRecord : EvRec := { source := 3, seq := 0, time := 0, code := 0x0300, payload := 0 }
/-- Does a command answer a next state of which a test holds? -/
def after (c : Instr) (s : State) (p : State → Bool) : Bool :=
  match exec c s with | .next t => p t | _ => false

/-- Slots wait for their units. -/
def handed (s : State) (l : List Slot) : State := { s with psc := { s.psc with accepted := l } }
def slotOf (index array word : Nat) : Slot :=
  { index := index, array := array, word := BitVec.ofNat 64 word, passage := 0, op := 1, scalars := [] }

/-! Witnesses, in the order of the statements. -/

theorem witness_StepRunsFront : State.reset.pending = [] ∧ State.reset.boot.stage = 0 ∧ (z8 1).pending = [] ∧ (z8 1).boot.stage ≠ 0 ∧
    (z8 1).psc.abortDue = false ∧ (z8 1).pins.wrstN = true := by decide
theorem witness_EveryStepKeepsSound : ∃ s t, step s = .next t ∧ Sound s ∧ s.boot.stage ≠ 0 :=
  ⟨z8 1, _, rfl, by simp [Sound, Good, z8, State.atReset, Tab.get, Tab.sorted, Psc.reset], by decide⟩
theorem witness_TokensAtCommitAndAbort : (z8 0xA).boot.stage = 0xA ∧ (z8 0xA).psc.abortDue = false ∧ (z8 0xA).psc.run = false ∧
    (z8 0xA).psc.repeats = false ∧ (z8 0xA).ras.audit = false ∧ (z8 0xA).psc.limited = false ∧ (z8 0xA).ras.lostWait = false := by decide
/-- In reset with `test_en` high and an instruction of the wrapper in force. -/
def wrapped (code : BitVec 8) : State :=
  { State.reset with pins := { State.reset.pins with testEn := true }, wrap := { State.reset.wrap with wir := code } }
theorem witness_ResetAndTestEnable : State.reset.pins.rstN = false ∧ (z8 5).pins.rstN = true ∧ (wrapped 1).pins.rstN = false ∧
    (wrapped 1).pins.testEn = true ∧ (wrapped 1).wrap.wir ∈ ([0x01, 0x02, 0x10, 0x12] : List (BitVec 8)) ∧
    (wrapped 0x11).wrap.wir ∉ ([0x01, 0x02, 0x10, 0x12] : List (BitVec 8)) ∧ State.reset.pins.testEn = false := by decide
/-- In self-test, with array 0 without a spare column left, of a class with spare arrays or none, its spare array taken or not. -/
def columnless (cls : Cls) (taken : Bool) : State :=
  let s := z8 5
  { s with
    silicon := { s.silicon with cls := cls },
    ras := { s.ras with
      retired := (List.range 8).map (fun i => { array := 0, isCol := true, index := 6 + i }), spareFor := if taken then [(0, 0)] else [] } }
def someColumn : Element := { array := 0, isCol := true, index := 5 }
/-- A fuse map that leaves array 0 of a Z8 block too few spare rows. -/
def poorFuses : FuseRead :=
  { someFuses with retired := (List.range 8).map (fun i => { array := 0, isCol := false, index := i }) }
/-- The fuse bits were read before. -/
def fusesSeen : State := { z8 2 with silicon := { (z8 2).silicon with fuseSeen := [someFuses] } }
theorem witness_StartupStages :
    State.reset.pins.rstN = false ∧ (z8 1).boot.stage = 1 ∧ (z8 2).boot.stage = 2 ∧ someFuses.crcOk = true ∧
      fuseAgrees (z8 2) someFuses = true ∧ fuseAgrees (z8 2) { someFuses with crcOk := false } = true ∧
      fuseAgrees (z8 2) { someFuses with bits := 1 } = false ∧ fuseAgrees fusesSeen someFuses = true ∧
      fuseAgrees fusesSeen { someFuses with dieId := 8 } = false ∧ fusesSeen.boot.stage = 2 ∧
      fuseSparesOk { z8 2 with silicon := { (z8 2).silicon with dieId := 7, fuseMap := poorFuses.retired } } = false ∧
      sparesLeft (z8 5) 0 true ≠ 0 ∧ sparesLeft (columnless .z64 false) someColumn.array someColumn.isCol = 0 ∧
      isReplaced (columnless .z64 false) 0 = false ∧ spareFree (columnless .z64 false) 0 = true ∧
      sparesLeft (columnless .z8 false) 0 true = 0 ∧ spareFree (columnless .z8 false) 0 = false ∧ isReplaced (columnless .z8 false) 0 = false ∧
      isReplaced (columnless .z64 true) 0 = true ∧
      fuseSparesOk { z8 2 with silicon := { (z8 2).silicon with dieId := 7, fuseMap := [] } } = true ∧ (z8 4).boot.stage = 4 ∧
      (z8 5).boot.stage = 5 ∧ (z8 6).boot.stage = 6 ∧ { someFuses with crcOk := false }.crcOk = false ∧ (z8 8).boot.interval = false ∧
      (z8 0xF).boot.stage = 0xF := by decide +kernel
def restoredSpares (b : List Byte) : State :=
  let s := z8 3
  { s with ras := { s.ras with restore := bytesAt 0 b }, boot := { s.boot with spareWritten := true } }
/-- A field-spare record of a Z8 block without an entry, and its CRC. -/
def sparesBody : List Byte := [1, 0, 8, 0, 8] ++ List.replicate 283 0
def sparesBytes : List Byte := sparesBody ++ leBytes 4 (crc32c sparesBody).toNat
/-- A flowstone record of zeros with its CRC. -/
def lifeBody : List Byte := [0x46, 0x4C, 0x4F, 0x57, 1, 0, 8] ++ List.replicate 6133 0
def lifeBytes : List Byte := lifeBody ++ leBytes 4 (crc32c lifeBody).toNat
def restoredLife (b : List Byte) : State :=
  let s := z8 7
  { s with life := { s.life with restore := bytesAt 0 b }, boot := { s.boot with lifeWritten := true } }
theorem witness_RestoreWindows :
    locked (z8 3) = false ∧ (z8 4).boot.stage ≠ 0 ∧ (z8 4).boot.stage ≠ 3 ∧ (0x17FF : BitVec 13).toNat < 0x1800 ∧
      0x1800 ≤ (0x1800 : BitVec 13).toNat ∧ (z8 3).boot.stage ≠ 7 ∧ (z8 7).boot.stage = 7 ∧
      (z8 3).boot.spareWritten = false ∧ (restoredSpares []).boot.spareWritten = true ∧ (z8 7).boot.lifeWritten = false ∧
      (restoredLife []).boot.lifeWritten = true ∧ lifeCause (restoredLife []) (bufBytes (restoredLife []).life.restore 6144) ≠ 0 := by
  decide +kernel
theorem lookup_bytesAt (l : List Byte) : ∀ k i : Nat, List.lookup (i + k) (bytesAt k l) = l[i]? := by
  induction l with
  | nil => intros; rfl
  | cons x xs ih =>
    intro k i
    rw [bytesAt, List.length_cons, List.range_succ_eq_map, List.map_cons, List.zip_cons_cons, List.lookup_cons]
    cases i with
    | zero => simp
    | succ i =>
      have h : ((i + 1 + k) == (0 + k)) = false := by simp
      rw [h, List.map_map, show ((· + k) ∘ Nat.succ) = (· + (k + 1)) from by funext y; simp; omega, show i + 1 + k = i + (k + 1) by omega]
      exact ih (k + 1) i
theorem bufBytes_bytesAt (l : List Byte) : bufBytes (bytesAt 0 l) l.length = l := by
  apply List.ext_getElem?
  intro i
  have h := lookup_bytesAt l 0 i
  by_cases hi : i < l.length
  · simp [bufBytes, Mem.byte?, bytesAt, hi] at h ⊢
    simp [h]
  · simp [bufBytes, hi]
/-- Bytes that end a memory are read back. -/
theorem hostBytesOf_bytesAt (a n : Nat) (l : List Byte) (m : Mem) (hn : l.length = n) (h : m.all (fun x => decide (x.1 < a)) = true) :
    hostBytesOf (m ++ bytesAt a l) a n = l := by
  subst hn
  have none_before : ∀ i, List.lookup (i + a) m = none := by
    intro i
    rw [List.lookup_eq_none_iff]
    intro x hx
    have := List.all_eq_true.mp h x hx
    simp at this ⊢
    omega
  apply List.ext_getElem?
  intro i
  have h := lookup_bytesAt l a i
  by_cases hi : i < l.length
  · simp [hostBytesOf, hostByteOf, Mem.byte?, List.lookup_append, Nat.add_comm a i, h, hi, none_before]
  · simp [hostBytesOf, hi]
theorem leNat_leBytes (n x : Nat) : leNat (leBytes n x) = x % 256 ^ n := by
  induction n generalizing x with
  | zero => simp [leBytes, leNat]; omega
  | succ n ih =>
    rw [leBytes, leNat, ih, Nat.pow_succ', Nat.mod_mul]
    simp
theorem length_leBytes (n x : Nat) : (leBytes n x).length = n := by induction n generalizing x <;> simp [leBytes, *]
/-- Bytes that end with their CRC pass the check of it. -/
theorem sealed_ok (l : List Byte) :
    fieldAt (l ++ leBytes 4 (crc32c l).toNat) l.length 4 = (crc32c ((l ++ leBytes 4 (crc32c l).toNat).take l.length)).toNat := by
  rw [List.take_left, fieldAt, List.drop_left, List.take_of_length_le (by simp [length_leBytes]), leNat_leBytes]
  exact Nat.mod_eq_of_lt (crc32c l).isLt
theorem lifeCause_zero (s : State) (b : List Byte) (h1 : fieldAt b 0 4 = 0x574F4C46) (h2 : fieldAt b 4 2 = 1)
    (h3 : fieldAt b 6 1 = s.silicon.cls.arrays) (h4 : fieldAt b 8 8 = s.silicon.dieId.toNat)
    (h5 : fieldAt b 0x17FC 4 = (crc32c (b.take 0x17FC)).toNat) (h6 : lifeReservedZero b = true) : lifeCause s b = 0 := by
  simp [lifeCause, h1, h2, h3, h4, h5, h6]
theorem slice_life (o hi : Nat) (h1 : 7 ≤ o) (h0 : o ≤ hi) (h2 : hi ≤ 6140) : slice lifeBytes o hi = List.replicate (hi - o) 0 := by
  have e : lifeBytes = ([0x46, 0x4C, 0x4F, 0x57, 1, 0, 8] ++ List.replicate 6133 0) ++ leBytes 4 (crc32c lifeBody).toNat := rfl
  generalize leBytes 4 (crc32c lifeBody).toNat = tail at e
  rw [slice, e, List.drop_append_of_le_length (by rw [List.length_append, List.length_replicate]; simp; omega),
    List.take_append_of_le_length (by rw [List.length_drop, List.length_append, List.length_replicate]; simp; omega), List.drop_append,
    List.drop_of_length_le (by simp; omega), List.nil_append, List.drop_replicate, List.take_replicate]
  congr 1
  simp only [List.length_cons, List.length_nil]
  omega
theorem leNat_replicate (n : Nat) : leNat (List.replicate n 0) = 0 := by
  induction n with
  | zero => rfl
  | succ n ih => rw [List.replicate_succ, leNat, ih]; rfl
theorem fieldAt_life (o n : Nat) (h1 : 7 ≤ o) (h2 : o + n ≤ 6140) : fieldAt lifeBytes o n = 0 := by
  have h := slice_life o (o + n) h1 (by omega) h2
  rw [slice, Nat.add_sub_cancel_left] at h
  rw [fieldAt, h, leNat_replicate]
theorem allZero_replicate (n : Nat) : allZero (List.replicate n 0) = true := by
  simp [allZero]
theorem life_zero : lifeReservedZero lifeBytes = true := by
  have f := fieldAt_life
  have g : ∀ o hi, 7 ≤ o → o ≤ hi → hi ≤ 6140 → allZero (slice lifeBytes o hi) = true := fun o hi h1 h0 h2 => by
    rw [slice_life o hi h1 h0 h2, allZero_replicate]
  simp only [lifeReservedZero, Bool.and_eq_true, List.all_eq_true, decide_eq_true_eq]
  refine ⟨⟨⟨⟨⟨⟨⟨⟨⟨⟨?_, ?_⟩, ?_⟩, ?_⟩, ?_⟩, ?_⟩, ?_⟩, ?_⟩, ?_⟩, ?_⟩, ?_⟩
  · rw [f _ _ (by omega) (by omega)]; omega
  · rw [f _ _ (by omega) (by omega)]; rfl
  · rw [f _ _ (by omega) (by omega)]; omega
  · exact g _ _ (by omega) (by omega) (by omega)
  · exact g _ _ (by omega) (by omega) (by omega)
  · exact g _ _ (by omega) (by omega) (by omega)
  · intro i hi
    rw [f _ _ (by omega) (by have := List.mem_range.mp hi; omega)]; omega
  · intro i hi
    have : i ≤ 233 := by revert i; decide
    exact g _ _ (by omega) (by omega) (by omega)
  · exact g _ _ (by omega) (by omega) (by omega)
  · exact g _ _ (by omega) (by omega) (by omega)
  · exact g _ _ (by omega) (by omega) (by omega)
theorem restoredLife_restore (b : List Byte) : (restoredLife b).life.restore = bytesAt 0 b := rfl
theorem lifeBody_length : lifeBody.length = 0x17FC := by rw [lifeBody, List.length_append, List.length_replicate]; rfl
theorem witness_RestoreWindows_life :
    lifeCause (restoredLife lifeBytes) (bufBytes (restoredLife lifeBytes).life.restore 6144) = 0 := by
  have hl : lifeBytes.length = 6144 := by rw [lifeBytes, List.length_append, lifeBody_length, length_leBytes]
  have h := bufBytes_bytesAt lifeBytes
  have hc := sealed_ok lifeBody
  rw [hl] at h
  rw [lifeBody_length] at hc
  rw [restoredLife_restore, h]
  exact lifeCause_zero _ _ (by decide +kernel) (by decide +kernel) (by decide +kernel)
    (fieldAt_life 8 8 (by omega) (by omega)) hc life_zero
theorem restoredSpares_restore (b : List Byte) : (restoredSpares b).ras.restore = bytesAt 0 b := rfl
theorem spareLen_restored (b : List Byte) : spareLen (restoredSpares b) = 292 := by
  show 16 + 32 * Cls.physArrays .z8 + 16 + 4 = 292
  decide
theorem witness_RestoreWindows_spares :
    spareAccept (restoredSpares sparesBytes) (bufBytes (restoredSpares sparesBytes).ras.restore (spareLen (restoredSpares sparesBytes))) = true ∧
      spareAccept (restoredSpares []) (bufBytes (restoredSpares []).ras.restore (spareLen (restoredSpares []))) = false := by
  have hb : sparesBody.length = 288 := by rw [sparesBody, List.length_append, List.length_replicate]; rfl
  have hl : sparesBytes.length = 292 := by rw [sparesBytes, List.length_append, hb, length_leBytes]
  have h : bufBytes (bytesAt 0 sparesBytes) 292 = sparesBytes := by rw [← hl]; exact bufBytes_bytesAt sparesBytes
  have hc : fieldAt sparesBytes (292 - 4) 4 = (crc32c (sparesBytes.take (292 - 4))).toNat := by
    rw [show 292 - 4 = sparesBody.length from hb.symm]; exact sealed_ok sparesBody
  constructor
  · rw [restoredSpares_restore, spareLen_restored, h, spareAccept, spareLen_restored, hc]
    simp only [Bool.and_eq_true]
    refine ⟨⟨⟨⟨⟨⟨⟨⟨⟨beq_self_eq_true _, ?_⟩, ?_⟩, ?_⟩, ?_⟩, ?_⟩, ?_⟩, ?_⟩, ?_⟩, ?_⟩
    all_goals decide +kernel
  · have h : (fieldAt (bufBytes (bytesAt 0 []) 292) 0 2 == 1) = false := by decide +kernel
    rw [restoredSpares_restore, spareLen_restored, spareAccept, h]
    simp
def loggedFull : State := { z8 1 with evt := { (z8 1).evt with queues := [(3, List.replicate 8 someRecord)] } }
theorem witness_RaisedEvent :
    (waitingRecords (z8 1) 3).length < 8 ∧ 8 ≤ (waitingRecords loggedFull 3).length ∧ (4 : Nat) ≠ 3 := by decide
theorem witness_WrittenBytesReadBack : ([1, 2] : List Byte)[1]? = some 2 ∧ (0 : Nat) < 1 ∧ 1 + ([1, 2] : List Byte).length ≤ 3 := by decide
/-- In the counting interval with channel 0 up, with request credits. -/
def counting (req : Nat) : State :=
  let s := z8 8
  { s with
    boot := { s.boot with interval := true, bmpVer := 1 }, pins := { s.pins with chanUp := 1 },
    bmp := { s.bmp with chans := [(0, { inService := false, req := req, wdata := 1, counted := 0, reqOut := 0, wdataOut := 0 })] } }
/-- Channels 0 and 1 in service. -/
def serving : State :=
  let s := z8 0xA
  { s with bmp := { s.bmp with chans := [(0, { inService := true, req := 4, wdata := 4, counted := 4, reqOut := 0, wdataOut := 0 }),
                                         (1, { inService := true, req := 4, wdata := 4, counted := 4, reqOut := 0, wdataOut := 0 })] } }
theorem witness_Negotiation :
    (z8 8).boot.stage = 8 ∧ (z8 8).boot.interval = false ∧
      (1 : BitVec 64) &&& BitVec.ofNat 64 (2 ^ (8 * (z8 8).slabs) - 1) ≠ 0 ∧ (0x100 : BitVec 64) &&& BitVec.ofNat 64 (2 ^ (8 * (z8 8).slabs) - 1) = 0 ∧ (counting 255).boot.interval = true ∧
      (counting 255).pins.chanUp.getLsbD 0 = true ∧ (getChan (counting 255) 0).req < 256 ∧ 256 ≤ (getChan (counting 256) 0).req ∧
      (counting 256).boot.excess.getLsbD 0 = false ∧ (∀ r ∈ (counting 255).bmp.reqs, r.wleft = 0) ∧
      (getChan serving 0).inService = true ∧ serving.boot.interval = false ∧ (getChan serving 2).inService = false ∧
      (∀ r ∈ serving.bmp.reqs, r.wleft = 0) ∧ (counting 257).boot.stage = 8 ∧ (counting 255).boot.rlpSeen = none ∧
      (counting 255).pins.laneUp ||| (1 : BitVec 32) ≠ 0 ∧ (z8 1).boot.interval = false ∧
      after (.negotiationIntervalEnd 1 0) (counting 256) (fun t => t.boot.stage == 0xF) = true ∧
      after (.negotiationIntervalEnd 1 0) (counting 257) (fun t => t.boot.stage == 9) = true := by decide +kernel
theorem witness_TestWrapper : (z8 1).pins.testEn = false ∧ { (z8 1).pins with testEn := true }.testEn = true ∧
    (z8 1).wrap.drive = none ∧ (z8 1).pins.wrstN = true ∧ { (z8 1).pins with wrstN := false }.wrstN = false := by decide
theorem witness_TestWrapper_reserved : ∀ k ∈ [0x01, 0x02, 0x10, 0x11, 0x12, 0x13], (0xFE : BitVec 8).toNat ≠ k := by decide
theorem test_wrapper : after .wsExtest (wrapped 0) (fun t => t.wrap.drive.isSome && !t.pins.applyOut) = true ∧
    (wrapInstr (wrapped 1) 0xFE 0 false).wrap.wir = 0xFE ∧ (wrapInstr (wrapped 1) 0xFE 5 true).silicon = (wrapped 1).silicon := by
  decide +kernel
def lockedState : State := setLive (z8 0xA) 0x020008 1
theorem witness_RegisterWrites :
    (∀ v, PlainAddress (z8 1) 0 0x020004 ∧ regRow (z8 1) 0x020004 = some (rwRow 0x020004 0xFFFF) ∧
      reservedFields 0x020004 (v &&& 0xFFFF) = 0) ∧ PlainAddress (z8 1) 0 0x050000 ∧
      regRow (z8 1) 0x050000 = some (raRow 2 0x050000 all32) ∧ PlainAddress (z8 1) 0 0x000000 ∧
      regRow (z8 1) 0x000000 = some (roRow 0x000000 all32) ∧ (z8 0).boot.stage = 0 ∧ (0xE : BitVec 4) ≠ 0xF ∧
      inCoreWindow 0x270000 = false ∧ inSpareWindow 0x270000 = false ∧ inLifeWindow 0x270000 = false ∧ regRow (z8 1) 0x270000 = none ∧
      (liveReg lockedState 0x020008).getLsbD 0 = true := by
  refine ⟨fun v => ⟨⟨by decide, by decide, by decide, by decide, fun u w => rfl, by decide⟩, by decide, rfl⟩,
    ⟨by decide, by decide, by decide, by decide, fun u w => rfl, by decide⟩, by decide,
    ⟨by decide, by decide, by decide, by decide, fun u w => rfl, by decide⟩, by decide, by decide, by decide, by decide, by decide, by decide,
    by decide, by decide⟩
def heldUpper : State := setReq (z8 1) 2 { ReqState.reset with hold := some (0x000004, 9) }
theorem witness_RegisterReads :
    (z8 1).boot.stage ≠ 0 ∧ (getReq (z8 1) 2).hold = none ∧ (getReq heldUpper 2).hold = some (0x000004, 9) ∧ pairLow 0x000080 = true ∧
      (regRow (z8 1) 0x000080).isSome = true ∧ regRow (z8 1) 0x270000 = none ∧ (∃ r, regRow (z8 1) 0x020000 = some r ∧ r.acc = .wo) ∧
      (∃ r, regRow (z8 1) 0x020004 = some r ∧ r.acc = .rw ∧ keptElsewhere 0x020004 = false) ∧
      (∃ r, regRow (z8 1) 0x050008 = some r ∧ r.acc = .ra 2) := by
  refine ⟨by decide, by decide, by decide, by decide, by decide, by decide, ⟨_, rfl, rfl⟩, ⟨_, rfl, rfl, by decide⟩, ⟨_, rfl, rfl⟩⟩
def shadowed : State := setShadow (setLive (z8 1) 0x020004 4) 0x050008 7
theorem witness_ApplyGroups :
    shadowed.boot.stage ≠ 0 ∧ raGroup shadowed 0x050008 = some 2 ∧ bitAt 6 2 = true ∧ bitAt 4 2 = true ∧
      6 = (2 : BitVec 16).toNat ||| (liveReg shadowed 0x020004).toNat % 65536 ∧ (List.lookup 0x050008 shadowed.regs.shadow).isSome = true ∧
      (liveReg shadowed 0x020004).toNat % 65536 = (0x0004 : BitVec 16).toNat ∧ 256 ≤ (0x0104 : BitVec 16).toNat ∧
      inStep shadowed = false ∧ raGroup shadowed 0x210040 = some 7 := by decide
theorem test_apply : after .applyInPulse shadowed (fun t => liveReg t 0x050008 == 7 && t.regs.pin) = true ∧
    after (.aplApply 0 2 { out := false, withPin := false }) shadowed (fun t => liveReg t 0x050008 == 0 && t.regs.applyCnt == 1) = true ∧
    after (.aplApply 0 2 { out := true, withPin := true }) shadowed (fun t =>
      liveReg t 0x050008 == 7 && t.regs.applied == 6 && t.regs.applyCnt == 1 && t.pins.applyOut) = true := by decide +kernel
def stage9 (img : Option (List Byte)) : State := { z8 9 with img := { (z8 9).img with live := img } }
theorem witness_LockAndReady : (z8 1).boot.stage ≠ 9 ∧ (stage9 none).img.live = none ∧ (stage9 (some [1])).boot.stage = 9 ∧
    after (.aplLockSet 0) (stage9 (some [1])) (fun t => t.boot.stage == 0xA && locked t) = true := by decide +kernel
def shadowImage (run : Bool) : State :=
  let s := z8 9
  { s with img := { s.img with shadow := some [1], state := 2 }, psc := { s.psc with run := run } }
/-- A load has fetched 1,152 bytes that do not begin with the magic number. -/
def fetched : State :=
  let s := z8 9
  { s with img := { s.img with loading := some (64, 1152), state := 1 }, hostMem := bytesAt 64 [0, 0, 0, 0] }
/-! A minimal image of a Z8 block, built and signed outside the model (key and signature by RFC 8032's formulas): eight sections, no
feeder, no region, one variant. -/

def imageHead : List Byte := leBytes 64 0xc5217e3d000000000000000000000000000000000000000000000000928d732d000000080000054000000000000000000000004000000108000000024d52415a
def imageDir : List Byte := leBytes 128 0x3c8eb6700000040000004c00000ff091a83a1c800000040000004800000ff077b360fc300000040000004400000000603c8eb67000000400000040000000005c646539400000240000001c00000000403c8eb6700000040000001800000000303c8eb67000000400000014000000002082764db00000080000000c000000001
def imageKey : Nat := 0x5c6f0fb4018874f31b12941dbf0967ca725dba3c2ddb52fd95f10974dde3888a
def imageSig : List Byte := leBytes 64 0xbb220ba3bc7978de2823f2e275200c102794dc057987c68e5d267cd8fd1c6d3bd6532b7a5a1a74ae11c116428cfd51ccceab4bf819947ddbf6e43c67ef77d77
def zeros (n : Nat) : List Byte := List.replicate n 0
def imageText : List Byte := imageHead ++ imageDir ++ zeros 896 ++ [1, 0, 1] ++ zeros 61 ++ [0, 0, 1] ++ zeros 31 ++ [1] ++ zeros 29 ++ zeros 64
theorem imageFault_none (s : State) (len : Nat) (img : List Byte)
    (h1 : fieldAt img 0 4 = 0x4D52415A ∧ fieldAt img 4 1 = 2 ∧ fieldAt img 5 1 = 0 ∧ fieldAt img 0x3C 4 = (crc32c (img.take 0x3C)).toNat ∧
      fieldAt img 0x18 4 = len ∧ fieldAt img 8 1 = s.silicon.cls.arrays ∧ fieldAt img 0xC 2 = s.silicon.lanes)
    (h2 : fieldAt img 9 1 = 1 ∧ fieldAt img 0xA 1 = 0 ∧ fieldAt img 0x1C 2 = 8 ∧
      fieldAt img 0x20 4 = (crc32c (slice img 64 (64 + 16 * 8))).toNat)
    (h3 : firstBad 8 (dirOk img 8) = none ∧ setOk img 8 = true)
    (h4 : firstBad 8 (fun i => (crc32c (sectBytes img i)).toNat == fieldAt img (64 + 16 * i + 12) 4) = none)
    (h5 : (s.img.keys.getD 32 0).getLsbD 0 = true) (h6 : edVerify (keyBytes s 0) (img.take (len - 64)) (img.drop (len - 64)) = true)
    (h7 : headReservedZero img 8 = true ∧
      firstBad 8 (fun i => sectReservedZero s.silicon.cls (imgDir img i).1 (sectBytes img i)) = none ∧
      firstBad 8 (fun i => sectOk s.silicon.cls (imgDir img i).1 (sectBytes img i)) = none)
    (h8 : firstBad 8 (fun i =>
      if (imgDir img i).1 = 8 then
        (pieces (sectBytes img i) 16 112 (fieldAt (sectBytes img i) 0 2)).all (fun l =>
          (pieces l 16 16 (fieldAt l 0 1)).all (fun r => decide (fieldAt r 8 2 < fieldAt img 9 1)))
      else if (imgDir img i).1 = 4 then decide (creditSum s.silicon.cls (sectBytes img i) ≤ s.boot.credits.toNat) else true) = none) :
    imageFault s len img = none := by
  obtain ⟨a1, a2, a3, a4, a5, a6, a7⟩ := h1
  obtain ⟨b1, b2, b3, b4⟩ := h2
  obtain ⟨c1, c2⟩ := h3
  obtain ⟨d1, d2, d3⟩ := h7
  simp only [b1] at h8
  simp only [imageFault, a1, a2, a3, a4, a5, a6, a7, b1, b2, b3, b4, c1, c2, h4, h5, h6, d1, d2, d3, h8]
  simp

def crcFrom (c : Word) (bs : List Byte) : Word :=
  bs.foldl (fun c b => (List.range 8).foldl (fun c _ => crcBit c) (c ^^^ b.setWidth 32)) c
theorem crcFrom_append (c : Word) (a b : List Byte) : crcFrom c (a ++ b) = crcFrom (crcFrom c a) b := List.foldl_append ..
theorem crcFrom_zeros (c : Word) (m n : Nat) : crcFrom c (zeros (m + n)) = crcFrom (crcFrom c (zeros m)) (zeros n) := by
  rw [zeros, ← List.replicate_append_replicate]; exact crcFrom_append ..
/-- The CRC register after each 64 zeros. -/
def crcSteps : List Word := [0xFFFFFFFF, 0xFC371498, 0xF7D89B24, 0x8BCA87CF, 0x478D4E6F, 0x03D5A233, 0x4509D0C9, 0xCC289DC7, 0xCF03123F, 0x39B9AC6B]
theorem crc_step : ∀ i ∈ List.range 9, crcFrom (crcSteps.getD i 0) (zeros 64) = crcSteps.getD (i + 1) 0 := by decide +kernel
theorem crc_zeros (n : Nat) (h : n ≤ 9) : crcFrom 0xFFFFFFFF (zeros (64 * n)) = crcSteps.getD n 0 := by
  induction n with
  | zero => rfl
  | succ n ih => rw [Nat.mul_succ, crcFrom_zeros, ih (by omega), crc_step n (List.mem_range.mpr (by omega))]
def fullImage : List Byte := imageText ++ imageSig
theorem image_crcs : firstBad 8 (fun i => (crc32c (sectBytes fullImage i)).toNat == fieldAt fullImage (64 + 16 * i + 12) 4) = none := by
  have e : sectBytes fullImage 3 = zeros 576 ∧ sectBytes fullImage 0 = zeros 128 := by decide +kernel
  have z : ∀ n ≤ 9, crc32c (zeros (64 * n)) = ~~~ crcSteps.getD n 0 := fun n h => congrArg (~~~ ·) (crc_zeros n h)
  have h3 : (crc32c (sectBytes fullImage 3)).toNat = fieldAt fullImage (64 + 16 * 3 + 12) 4 := by
    rw [e.1, show 576 = 64 * 9 from rfl, z 9 (by omega)]; decide +kernel
  have h0 : (crc32c (sectBytes fullImage 0)).toNat = fieldAt fullImage (64 + 16 * 0 + 12) 4 := by
    rw [e.2, show 128 = 64 * 2 from rfl, z 2 (by omega)]; decide +kernel
  have h : ∀ i ∈ [1, 2, 4, 5, 6, 7], ((crc32c (sectBytes fullImage i)).toNat == fieldAt fullImage (64 + 16 * i + 12) 4) = true := by decide +kernel
  rw [firstBad, List.find?_eq_none]
  intro i hi
  have hi := List.mem_range.mp hi
  have : i = 0 ∨ i = 3 ∨ i ∈ [1, 2, 4, 5, 6, 7] := by simp; omega
  rcases this with rfl | rfl | hm
  · simpa using h0
  · simpa using h3
  · simpa using h i hm
theorem image_directory : fieldAt fullImage 0x20 4 = (crc32c (slice fullImage 64 (64 + 16 * 8))).toNat := by
  have e : slice fullImage 64 (64 + 16 * 8) = imageDir.take 64 ++ imageDir.drop 64 := by decide +kernel
  have h : crcFrom 0xFFFFFFFF (imageDir.take 64) = 0xABAB20DD := by decide +kernel
  have k : crc32c (imageDir.take 64 ++ imageDir.drop 64) = ~~~ crcFrom 0xABAB20DD (imageDir.drop 64) := by
    rw [← h, ← crcFrom_append]; rfl
  rw [e, k]
  decide +kernel
theorem image_signed : edVerify (leBytes 32 imageKey) imageText imageSig = true := by decide +kernel
/-- A load has fetched these bytes, and the key of the image is in slot 0. -/
def loadedWith (l : List Byte) : State :=
  let s := z8 9
  { s with
    img := { s.img with
      loading := some (64, 1344), state := 1,
      keys := (List.range 8).map (fun i => BitVec.ofNat 32 (imageKey / 2 ^ (32 * i))) ++ List.replicate 24 0 ++ [1] },
    hostMem := bytesAt 64 l }
def loaded : State := loadedWith fullImage
theorem portBytes_loadedWith (l : List Byte) (hl : l.length = 1344) : portBytes (loadedWith l) 64 1344 = l := by
  have h : mapAddr (loadedWith l) 64 1344 = some 64 := rfl
  rw [portBytes, h]
  exact hostBytesOf_bytesAt 64 1344 l [] hl rfl
theorem portBytes_loaded : portBytes loaded 64 1344 = fullImage := portBytes_loadedWith fullImage (by decide +kernel)
theorem image_accepted : imageFault loaded 1344 fullImage = none := by
  have f : fullImage.take 1280 = imageText ∧ fullImage.drop 1280 = imageSig ∧ keyBytes loaded 0 = leBytes 32 imageKey := by decide +kernel
  refine imageFault_none _ _ _ ?_ ?_ ?_ image_crcs ?_ ?_ ?_ ?_
  · decide +kernel
  · exact ⟨by decide +kernel, by decide +kernel, by decide +kernel, image_directory⟩
  · decide +kernel
  · decide +kernel
  · rw [f.1, f.2.1, f.2.2]; exact image_signed
  · decide +kernel
  · decide +kernel
/-- An image whose checks all pass. -/
theorem witness_ImagePlanes_accepted : loaded.img.loading = some (64, 1344) ∧ loaded.boot.stage = 9 ∧ 1344 % 64 = 0 ∧
    (∀ j ∈ loaded.bmp.jobs, j.kind ≠ .image) ∧ imageFault loaded 1344 (portBytes loaded 64 1344) = none := by
  rw [portBytes_loaded, image_accepted]
  exact ⟨rfl, rfl, rfl, by decide, rfl⟩
theorem witness_ImagePlanes :
    (z8 9).img.swapPending = false ∧ (z8 9).img.loading = none ∧ { (z8 9).img with swapPending := true }.swapPending = true ∧
      fetched.img.loading = some (64, 1152) ∧ fetched.boot.stage = 9 ∧ 1152 % 64 = 0 ∧ (∀ j ∈ fetched.bmp.jobs, j.kind ≠ .image) ∧
      imageFault fetched 1152 (portBytes fetched 64 1152) = some (0x01, 0xFFFF) ∧ (shadowImage true).img.state = 2 ∧
      (shadowImage true).img.shadow = some [1] ∧ (shadowImage true).psc.run = true ∧ (shadowImage false).psc.run = false ∧ (shadowImage false).psc.stepOn = false ∧
      { (shadowImage true).img with swapPending := true }.swapPending = true ∧ (1153 : Nat) % 64 ≠ 0 ∧ (1088 : Nat) < 1152 ∧
      fetched.img.swapPending = false ∧ (waitingRecords fetched 1).length < 8 ∧
      (z8 9).img.state ≠ 2 := by decide +kernel
theorem test_image : after (.imgLoad 0) (z8 9) (fun t => t.img.state == 1) = true ∧
    after (.imageValidate true) fetched (fun t => t.img.state == 3 && t.img.code == 1) = true ∧
    after (.imgSwap 0) (shadowImage false) (fun t => t.img.live == some [1]) = true := by decide +kernel
def logged (head tail : Word) : State :=
  let s := z8 0xA
  { s with evt := { s.evt with ring := [(0, someRecord)], head := head, tail := tail, queues := [(3, [someRecord])] } }
theorem witness_EventLog :
    (logged 1 0).evt.head ≠ (logged 1 0).evt.tail ∧ List.lookup ((logged 1 0).evt.tail.toNat % 8192) (logged 1 0).evt.ring = some someRecord ∧
      (logged 0 0).evt.head = (logged 0 0).evt.tail ∧ ((logged 8192 0).evt.head - 0).toNat ≤ 8192 ∧
      8192 < ((logged 8193 0).evt.head - 0).toNat ∧ waitingRecords (logged 1 0) (3 : BitVec 8).toNat = [someRecord] ∧
      ((logged 8192 0).evt.head - (logged 8192 0).evt.tail).toNat = 8192 ∧
      ((logged 8191 0).evt.head - (logged 8191 0).evt.tail).toNat ≠ 8192 ∧ 3 ≤ (logged 1 0).boot.stage.toNat ∧ (z8 2).boot.stage.toNat < 3 ∧ waitingRecords (logged 1 0) (4 : BitVec 8).toNat = [] := by
  decide +kernel
theorem test_event_log : after (.evtLatch 0) (logged 1 0) (fun t => (getReq t 0).record == 0x03000000000000000000000003) = true ∧
    after (.eventLogWrite 3) (logged 8192 0) (fun t => t.evt.head == 8193 && t.evt.tail == 1 && t.evt.overflow == 1) = true := by
  decide +kernel
theorem witness_EpochAndMailboxes : (z8 1).boot.stage ≠ 0 ∧ 4 ≤ (4 : BitVec 4).toNat ∧ (3 : BitVec 4).toNat < 4 ∧
    intSense (setLive (z8 1) (0x240000 + 4 * 36) 0x10000) (32 + (4 : BitVec 4).toNat) ≠ 0 ∧ intSense (setLive (z8 1) (0x240000 + 4 * 36) 0) (32 + (4 : BitVec 4).toNat) = 0 := by decide
theorem test_mailbox : after (.mbxPost 0 4) (z8 1) (fun t => (getMbx t 4).ready && (getMbx t 4).seq == 1) = true ∧
    after .tsEpoch (z8 1) (fun t => t.clock.epoch == 1) = true := by decide +kernel
/-- A mailbox's pulse at a level source holds only until arbitration has looked at it (R301). -/
theorem test_pulse_at_level : after (.mbxPost 0 4) (setLive (z8 1) (0x240000 + 4 * 36) 0) (fun t => intPending t 36 &&
    after .intDelivery t (fun u => !intPending u 36)) = true := by decide +kernel
/-- Source 52 pending and enabled at priority 3, to target 0. -/
def offered : State :=
  let s := setLive (z8 1) (0x240000 + 4 * 52) 0x00050103
  { s with intc := { s.intc with pend := 2 ^ 52 } }
def claimed : State :=
  let s := z8 1
  { s with intc := { s.intc with held := [(1, 52)], act := 2 ^ 53, atgt := [(53, 1)] } }
theorem witness_Interrupts :
    List.lookup 1 claimed.intc.held = some (52 : BitVec 8).toNat ∧ List.lookup 0 claimed.intc.held ≠ some (52 : BitVec 8).toNat ∧
      claimed.intc.act.getLsbD (53 : BitVec 8).toNat = true ∧ List.lookup (53 : BitVec 8).toNat claimed.intc.atgt = some 1 ∧
      claimed.intc.act.getLsbD (52 : BitVec 8).toNat = false ∧ (z8 1).boot.stage ≠ 0 := by decide
theorem witness_Interrupts_delivery : intFirst (sampleIdle offered) = some (52, 0) ∧
    (∀ n < 256, (intPending (sampleIdle (z8 1)) n && intEnabled (sampleIdle (z8 1)) n) = false) := by decide +kernel
theorem test_interrupts : after .intDelivery offered (fun t => List.lookup 0 t.intc.held == some 52) = true ∧
    after (.intAck 0 1 52) claimed (fun t => t.intc.act.getLsbD 52 && (List.lookup 1 t.intc.held).isNone) = true := by decide +kernel
def saving : State := { z8 0xA with life := { (z8 0xA).life with busy := true } }
def ringed (size : BitVec 64) : State :=
  setLive (setLive (setLive (setLive (z8 0xA) 0x290010 0x1000) 0x290018 0x00010001) 0x210040 (size.setWidth 32)) 0x210044 0
theorem witness_LifetimeAndTelemetry :
    8 ≤ (z8 8).boot.stage.toNat ∧ (z8 8).boot.stage ≠ 0xF ∧ (z8 7).boot.stage ≠ 0 ∧ (z8 7).boot.stage.toNat < 8 ∧ (z8 8).life.busy = false ∧
      saving.life.busy = true ∧ quantumRuns (z8 8) 4 8 8 = true ∧ quantumRuns saving 4 8 8 = true ∧
      quantumRuns (handed (z8 0xA) [slotOf 96 96 0]) 4 8 8 = false ∧ quantumRuns (ringed 0) 3 8 8 = true ∧ (liveReg (ringed 0) 0x290018).toNat % 65536 ≠ 0 ∧ efSize (ringed 0) = 0 := by decide
/-- The transfer of a snapshot's record has a request. -/
def snapshotSent : State :=
  let s := z8 0xA
  let j : Job := { id := 5, kind := .tel 9, reads := false, writes := true, src := 0, dst := 0x1000, slab := 0, part := 0, off := 0, len := 128,
                   rdIssued := 0, rdDone := 0, wrIssued := 128, wrDone := 0, rdSince := 0, buf := [], failed := false, spec := false }
  { s with bmp := { s.bmp with jobs := [j] } }
theorem witness_LifetimeAndTelemetry_lost : (snapshotSent.bmp.jobs.map (fun j => (j.id, j.kind))) = [(5, JobKind.tel 9)] ∧
    (z8 0xF).boot.stage = 0xF ∧ (liveReg (z8 0xA) 0x290018).toNat % 65536 = 0 := by decide +kernel
theorem test_telemetry : after (.telemetrySnapshot [1, 2, 3]) (ringed 0) (fun t => Tab.get 0 t.life.sense 2 == 3 &&
    t.hostMem == [] && t.life.telW == 1 && t.bmp.jobs.map (fun j => (j.dst, j.len)) == [(0x1000, 128)]) = true := by decide +kernel
theorem test_histogram : after (.histogramSecond 400 { arr := 850, log := 900 }) (z8 8) (fun t => t.life.rec_.temps.length == 1) = true ∧
    tempBin (-(2 ^ 40)) = 0 ∧ tempBin (2 ^ 40) = 15 ∧ voltBin 0 = 0 ∧ voltBin (2 ^ 40) = 7 := by decide +kernel
def capped (cap : BitVec 10) (b : Nat) : State := { z8 1 with pwr := { (z8 1).pwr with cap := cap, b := b } }
/-- Paused by a droop, with the handshake of a ramp enabled or not. -/
def drooped (handshake : Bool) : State :=
  let s := setLive (z8 1) 0x2A0000 (if handshake then 1 else 0)
  { s with pins := { s.pins with droopN := false }, pwr := { s.pwr with paused := true } }
def ramping : State := { z8 1 with pwr := { (z8 1).pwr with waiting := true } }
theorem witness_PowerPorts :
    (capped 0 1).pwr.cap = 0 ∧ (capped 1 0).pwr.cap ≠ 0 ∧ (capped 1 0).pwr.cap.toNat * 1000 < 1001 ∧
      16 * 937 ≤ 15 * ((capped 1 2).pwr.cap.toNat * 1000) ∧ 1000 ≤ (capped 1 2).pwr.cap.toNat * 1000 ∧
      15 * ((capped 1 2).pwr.cap.toNat * 1000) < 16 * 938 ∧ (capped 1 0).pwr.b = 0 ∧ (z8 1).pins.droopN = true ∧
      (drooped false).pins.droopN = false ∧ (drooped false).pwr.paused = true ∧
      (aclkReg (drooped false) 0x2A0000).getLsbD 0 = false ∧ (aclkReg (drooped true) 0x2A0000).getLsbD 0 = true ∧
      (drooped true).pins.rampAck = false ∧ { (drooped true).pins with rampAck := true }.rampAck = true ∧ (drooped true).pwr.waiting = false ∧
      { drooped true with pwr := { (drooped true).pwr with waiting := true } }.pwr.waiting = true ∧
      (capped 0 0).pwr.paused = false ∧ { (capped 0 0).pins with droopN := false }.droopN = false ∧ ramping.pwr.waiting = true ∧ ramping.pwr.paused = false ∧ (z8 1).pwr.waiting = false ∧
      (z8 1).pwr.paused = false := by decide
theorem test_power : after (.powerWindow 1001) (capped 1 15) (fun t => t.pwr.b == 15) = true ∧
    after (.powerWindow 937) (capped 1 0) (fun t => t.pwr.b == 0) = true := by decide +kernel
/-- Core 1 released, with one 32-bit instruction at address 0. -/
def coreState (w : Nat) (c : Core := Core.reset) : State :=
  setCore (z8 1) 1 { c with hold := false, imem := bytesAt 0 (leBytes 4 w) }
/-- The fetch of core 1 answers a word and its length, none, or an address at fault. -/
def fetches (s : State) (w n : Nat) : Bool :=
  match coreFetch s 1 with | .ok (some v, u, m) => v == w && u == w && m == n | _ => false
def fetchesNone (s : State) (w n : Nat) : Bool :=
  match coreFetch s 1 with | .ok (none, u, m) => u == w && m == n | _ => false
def fetchFails (s : State) (a : Word) : Bool := match coreFetch s 1 with | .error b => b == a | _ => false
theorem fetches_iff (s : State) (w n : Nat) (a : Word) :
    (fetches s w n = true → coreFetch s 1 = .ok (some w, w, n)) ∧ (fetchesNone s w n = true → coreFetch s 1 = .ok (none, w, n)) ∧
      (fetchFails s a = true → coreFetch s 1 = .error a) := by
  unfold fetches fetchesNone fetchFails
  cases h : coreFetch s 1 with
  | error b => simp
  | ok r => obtain ⟨o, u, m⟩ := r; cases o <;> simp; all_goals (intros; simp_all)
def dmemCore : Core := Core.reset.setReg 5 0x1FFFC
theorem witness_CoreControl :
    (getCore (coreState 0) 1).hold = false ∧ (getCore (z8 1) 1).hold = true ∧
      2 ≤ (liveReg (setLive (z8 1) 0x31000C 2) (0x30000C + 0x10000 * 1)).toNat % 4 ∧
      (liveReg (z8 1) (0x30000C + 0x10000 * 1)).toNat % 4 < 2 := by decide
/-- Words as RISC-V encodes them: the upper immediates, jumps, a taken branch and one that is not, ADDI, ADD, MUL, FENCE, LW x6,0(x5),
SW x6,0(x5). -/
theorem witness_CoreInstructions :
    (∀ w ∈ [0x12345337, 0x12345317, 0x0040036F, 0x00428367, 0x00000263, 0x00029263, 0x00128313, 0x00528333, 0x02528333, 0x0000000F, 0x0002A303,
      0x0062A023], coreRuns (coreState w dmemCore) 1 = true ∧ fetches (coreState w dmemCore) w 4 = true) ∧
      fld 0x12345337 6 0 = 0x37 ∧ fld 0x12345317 6 0 = 0x17 ∧ fld 0x0040036F 6 0 = 0x6F ∧ fld 0x00428367 6 0 = 0x67 ∧
      fld 0x00428367 14 12 = 0 ∧ fld 0x00000263 6 0 = 0x63 ∧ branchTaken (fld 0x00000263 14 12) 0 0 = some true ∧
      branchTaken (fld 0x00029263 14 12) 0 0 = some false ∧ fld 0x00128313 6 0 = 0x13 ∧ immLegal 0x00128313 = true ∧
      fld 0x00528333 6 0 = 0x33 ∧ opLegal 0x00528333 = true ∧ fld 0x02528333 31 25 = 1 ∧ opLegal 0x02528333 = true ∧
      fld 0x0000000F 6 0 = 0x0F ∧ fld 0x0000000F 14 12 ≤ 1 ∧ fld 0x0002A303 6 0 = 0x03 ∧ loadShape (fld 0x0002A303 14 12) ≠ none ∧
      ((dmemCore.reg 5) + immI 0x0002A303).toNat % 4 = 0 ∧ ((dmemCore.reg 5) + immI 0x0002A303).toNat < 0x20000 ∧
      fld 0x0062A023 6 0 = 0x23 ∧ storeBytes (fld 0x0062A023 14 12) = some 4 ∧ 0x10000 ≤ ((dmemCore.reg 5) + immS 0x0062A023).toNat := by
  decide +kernel
theorem test_core_instruction : after (.ccInstruction 1 .sound) (coreState 0x00128313 dmemCore) (fun t =>
    (getCore t 1).reg 6 == 0x1FFFD && (getCore t 1).pc == 4) = true ∧
    after (.ccInstruction 1 .sound) (coreState 0x0062A023 (dmemCore.setReg 6 0xAABBCCDD)) (fun t =>
      (getCore t 1).dmem == [(0xFFFC, 0xDD), (0xFFFD, 0xCC), (0xFFFE, 0xBB), (0xFFFF, 0xAA)]) = true := by decide +kernel
def interrupted : State :=
  let s := coreState 0 { Core.reset with mie := true, meie := true }
  { s with intc := { s.intc with held := [(1, 40)] } }
theorem witness_CoreTraps :
    fetchFails { coreState 0 with cores := [(1, { Core.reset with hold := false, pc := 0x10000 })] } 0x10000 = true ∧
      fetchesNone (coreState 0) 0 2 = true ∧
      (∀ w ∈ [0x00000073, 0x00100073, 0x30200073, 0x10500073],
        coreRuns (coreState w) 1 = true ∧ fetches (coreState w) w 4 = true) ∧ coreRuns (z8 1) 1 = false ∧
      (getCore interrupted 1).mie = true ∧ (getCore interrupted 1).meie = true ∧ (List.lookup 1 interrupted.intc.held).isSome = true ∧
      (getCore (coreState 0) 1).mie = false := by decide +kernel
theorem test_core_trap : after (.ccInstruction 1 .sound) (coreState 0x00000073 { Core.reset with mtvec := 0x40 }) (fun t =>
    (getCore t 1).pc == 0x40 && (getCore t 1).mcause == 11) = true ∧
    after (.ccInterruptTaken 1) interrupted (fun t => (getCore t 1).mcause == 0x8000000B) = true := by decide +kernel
theorem test_core_memory : after (.ccInstruction 1 .badLoad) (coreState 0x0002A303 dmemCore) (fun t =>
    (getCore t 1).mcause == 5 && (getCore t 1).mtval == 0x1FFFC) = true ∧
    after (.ccInstruction 1 .badFetch) (coreState 0x00128313 dmemCore) (fun t => (getCore t 1).mcause == 1) = true ∧
    after (.ccInstruction 1 .corrected) (coreState 0x00128313 dmemCore) (fun t =>
      leakyCount t 4 1 == 1 && (getCore t 1).reg 6 == 0x1FFFD) = true := by decide +kernel
def engineCore : State := coreState 0 { (dmemCore.setReg 7 0x1880) with notify := [9] }
theorem witness_EngineInstructions :
    coreRuns engineCore 1 = true ∧ (getCore engineCore 1).notify = [9] ∧ (getCore (coreState 0) 1).notify = [] ∧
      0x1880 ≤ ((getCore engineCore 1).reg 7).toNat ∧ ((getCore engineCore 1).reg 7).toNat ≤ 0x18FF ∧
      ((getCore (coreState 0 (Core.reset.setReg 7 0x1801)) 1).reg 7).toNat = 0x1801 ∧ (waitingRecords engineCore 0x19).length < 8 ∧
      ((getCore engineCore 1).reg 5).toNat > 0x18FF ∧ ((getCore engineCore 1).reg 0).toNat < 0x1880 ∧
      ((getCore (coreState 0 (Core.reset.setReg 7 0x1FF)) 1).reg 7).toNat % 256 ≠ 0 ∧ 0x1FF < 512 ∧
      (coreState 0).psc.stepOn = false ∧ List.lookup 255 (coreState 0).psc.conds = none ∧
      ((getCore (coreState 0 (Core.reset.setReg 7 0x200)) 1).reg 7).toNat = 512 := by decide +kernel
theorem test_engine : after (.znpop 1 6) engineCore (fun t => (getCore t 1).reg 6 == 9 && (getCore t 1).notify == []) = true ∧
    after (.zevt 1 7 0) engineCore (fun t => (waitingRecords t 0x19).length == 1) = true := by decide +kernel
/-! A small world: an image with the sections named, a passage table, and the bytes of host memory a step reads. -/

/-- An image of two variants with sections of a type and a variant. -/
def imageOf (l : List (Nat × Nat × List Byte)) : List Byte :=
  let dir := l.foldl (fun (d : List Byte × Nat) x =>
    (d.1 ++ leBytes 1 x.1 ++ leBytes 1 x.2.1 ++ [0, 0] ++ leBytes 4 d.2 ++ leBytes 4 x.2.2.length ++ [0, 0, 0, 0], d.2 + x.2.2.length))
    ([], 64 + 16 * l.length)
  List.replicate 9 0 ++ [2] ++ List.replicate 18 0 ++ leBytes 2 l.length ++ List.replicate 34 0 ++ dir.1 ++ l.flatMap (fun x => x.2.2)
/-- A passage-table entry without residency: class, flags, cond, variant; bundles at `0x8000`, contexts at `0x4000`, descriptors at `0x6000`. -/
def entryOf (cls flags cond variant : Nat) : List Byte :=
  leBytes 1 cls ++ [0] ++ leBytes 1 flags ++ leBytes 1 cond ++ leBytes 2 variant ++ [0xFF, 0xFF] ++ leBytes 8 0x8000 ++ leBytes 4 24 ++
    leBytes 2 2 ++ [0, 0] ++ leBytes 8 0x4000 ++ leBytes 8 0x5000 ++ leBytes 8 0x6000 ++ leBytes 2 2 ++ List.replicate 14 0
/-- Stage 0xA, a step in progress with this image, these passages and these bytes. -/
def world (img : List (Nat × Nat × List Byte)) (passages : List (List Byte)) (mem : List (Nat × List Byte)) : State :=
  let s := z8 0xA
  let m := bytesAt 0x1000 (passages.flatMap id) ++ mem.flatMap (fun x => bytesAt x.1 x.2)
  { s with
    hostMem := m, img := { s.img with live := some (imageOf img) },
    psc := { s.psc with
      run := true, stepOn := true, sample := { mem := m, phase := false, regs := [(0x040020, 0x1000), (0x040028, BitVec.ofNat 32 passages.length)] } } }
/-- Passages stand so. -/
def standing (s : State) (l : List (Nat × PStatus)) (issuing : Option Nat) : State :=
  { s with psc := { s.psc with passages := l.map (fun x => (x.1, { Passage.reset with status := x.2, ptr := 0x8000 })), issuing := issuing } }
def versions (t : Nat) (v : TensorVer) : State := setVer (z8 0xA) t v
def stalled : State :=
  let s := versions 3 { TensorVer.reset with updating := true }
  { s with psc := { s.psc with sample := { mem := [(3 * 256, 0)], phase := false, regs := [] } } }
theorem witness_VersionRelease :
    (∀ x, 3 ≤ x → x ≤ 4 → (getVer (z8 0xA) x).waiting = []) ∧ List.lookup 1 (getVer (z8 0xA) 3).bound = none ∧
      (getVer (versions 3 { TensorVer.reset with waiting := [(false, 1)] }) 3).waiting ≠ [] ∧
      List.lookup 1 (getVer (versions 3 { TensorVer.reset with bound := [(1, 0)] }) 3).bound = some 0 :=
  ⟨fun _ _ _ => rfl, by decide, by decide, by decide⟩
theorem test_version_release : after (.versionRelease 0 1 3 3) (versions 3 { TensorVer.reset with bound := [(1, 0)] }) (fun t =>
    (getTag (getVer t 3) 0).pending == -1 && (getVer t 3).bound == []) = true := by decide +kernel
/-- The current version of tensor 3 holds all the tokens it can. -/
def fullTag : State := versions 3 { TensorVer.reset with tags := [(0, { TagState.reset with tokens := 65535, live := true })] }
theorem witness_VersionAcquire :
    (∀ x, 3 ≤ x → x ≤ 4 → (getVer (z8 0xA) x).waiting = [] ∧ acquireWaits (z8 0xA) x = false ∧
      ((getTag (getVer (z8 0xA) x) (getVer (z8 0xA) x).cur).tokens : Int) + (getTag (getVer (z8 0xA) x) (getVer (z8 0xA) x).cur).pending < 65535) ∧
      (getVer stalled 3).waiting = [] ∧ (getVer stalled 3).updating = true ∧ verStash stalled 3 = 0 ∧ (3 : BitVec 10) < 4 ∧
      (let v := dropBinding (getVer fullTag 3) 1
       65535 < ((getTag v v.cur).tokens : Int) + (getTag v v.cur).pending + 1) ∧ (getVer fullTag 3).waiting = [] ∧
      acquireWaits fullTag 3 = false :=
  ⟨fun _ _ _ => ⟨rfl, rfl, show ((0 : Nat) : Int) + 0 < 65535 by decide⟩, by decide, by decide, by decide +kernel, by decide, by decide, by decide, by decide⟩
theorem test_version_acquire : after (.versionAcquire 0 1 3 4) (z8 0xA) (fun t =>
    (getVer t 4).bound == [(1, 0)] && (getTag (getVer t 4) 0).pending == 1) = true := by decide +kernel
/-- An abort that waits for no operation any more. -/
def aborting : State := let s := world [] [] []; { s with psc := { s.psc with abortDue := true } }
theorem witness_StepStart :
    (z8 9).boot.stage ≠ 0xA ∧ (z8 9).psc.run = false ∧ (z8 0xA).psc.run = false ∧ (z8 0xA).boot.stage = 0xA ∧ (z8 0xA).ras.audit = false ∧
      (z8 0xA).psc.limited = false ∧ (z8 0xA).ras.lostWait = false ∧ (world [] [] []).psc.run = true ∧ (z8 0xA).psc.repeats = false ∧ (z8 0xA).psc.abortDue = false ∧ (z8 0xA).pins.rampAck = false ∧
      (aclkReg (z8 0xA) 0x2A0000).getLsbD 0 = false ∧ (aclkReg (setLive (z8 0xA) 0x2A0000 1) 0x2A0000).getLsbD 0 = true ∧ aborting.psc.abortDue = true ∧
      aborting.psc.stepOn = true ∧ opsSettled aborting = true := by decide
/-- A speculative passage 0 of cond 5 that runs, and passage 1 of cond 5 that has not started. -/
def conditional (st : PStatus) : State :=
  let s := world [] [entryOf 1 3 5 0, entryOf 1 1 5 0] []
  { s with psc := { s.psc with passages := [(0, { Passage.reset with status := st, spec := true })] } }
theorem witness_ResolveCond :
    (conditional .running).rlp.range = none ∧ (conditional .running).psc.stepOn = true ∧ (conditional .running).psc.committed = false ∧
      List.lookup 5 (conditional .running).psc.conds = none ∧ ptCount (conditional .running) = 2 ∧
      (pentry (conditional .running) 0).valid = true ∧ (pentry (conditional .running) 1).cond = 5 ∧
      (getPassage (conditional .running) 1).status = .notStarted ∧ (getPassage (conditional .running) 0).spec = true ∧
      List.lookup 5 { (z8 0xA).psc with conds := [(5, true)] }.conds = some true ∧ (z8 0xA).psc.stepOn = false := by decide +kernel
theorem test_resolve : after (.pscResolve 0 5 false) (conditional .running) (fun t =>
    (getPassage t 0).status == .undoing && (getPassage t 1).status == .resolvedFalse) = true := by decide +kernel
/-- Passage 0 waits behind a swap, or suspended for passage 1, of a variant. -/
def resuming (variant : Nat) : State :=
  let s := standing (world [] [entryOf 1 1 0 variant, entryOf 1 1 0 0] []) [(0, .suspended), (1, .completed)] none
  { s with psc := { s.psc with preempter := some 1, suspended := some 0 } }
def two : State := standing (world [] [entryOf 1 1 0 0, entryOf 1 1 0 0] []) [(0, .running)] (some 0)
def preempted : State := let s := standing two [(0, .running)] (some 0); { s with psc := { s.psc with preempter := some 1 } }
/-- A DRAIN waits for chunks that the stop of its array keeps. -/
def preemptedBehind : State :=
  let c : Chunk := { id := { array := 0, row := 0, col := 0, seg := 0 }, op := 1, pass := 0, target := 0, row := 0, ow := false, wide := false,
                     lsb := 0, scale := 0, word := 5, resid := 5, korigin := 0, fails := 0, take := 1, live := true, stage := .latched }
  let s := setArray preempted 0 { ArrayState.reset with stopped := true, saved := { Susp.none with saved := [c] } }
  { s with psc := { s.psc with accepted := [slotOf 88 0 (4 * 2 ^ 60)] },
           sump := { s.sump with groups := [(0, { Group.closed with isOpen := true, rowCount := 1 })] } }
theorem witness_Preempt :
    two.psc.issuing = some 0 ∧ two.psc.suspended = none ∧ two.psc.preempter = none ∧ (getPassage two 0).spec = false ∧
      (getPassage two 0).status = .running ∧ ready (refresh (dropHold two 0)) 1 = true ∧ preemptMoves two 0 1 = false ∧
      (z8 0xA).psc.issuing = none ∧ ready (refresh (dropHold two 0)) 0 = false ∧
      preempted.psc.issuing = some 0 ∧ preempted.psc.preempter = some 1 ∧ preempted.psc.suspended = none ∧
      preempted.psc.ops.any (fun o => o.passage == 0) = false ∧ preempted.psc.accepted = [] ∧
      preemptedBehind.psc.ops.any (fun o => o.passage == 0) = false ∧ headWaits preemptedBehind = true ∧
      (resuming 0).psc.suspended = some 0 ∧ (resuming 0).psc.preempter = some 1 ∧ (resuming 0).psc.issuing = none ∧
      (resuming 0).img.swapTo = none ∧ passageDone (resuming 0) 1 = true ∧
      resolveVariant (resuming 0) (pentry (resuming 0) 0) = some 0 ∧ (resuming 0).img.variant = 0 ∧
      resolveVariant (resuming 1) (pentry (resuming 1) 0) = some 1 := by decide +kernel
theorem test_suspend : after .passageSuspend preempted (fun t => t.psc.suspended == some 0 && t.psc.issuing == some 1) = true ∧
    after .passageSuspend preemptedBehind (fun t => t.psc.accepted == [] && (getPassage t 0).rest.length == 1) = true ∧
    after .passageResume (resuming 0) (fun t => t.psc.issuing == some 0) = true := by decide +kernel
theorem test_preempt : after (.pscPreempt 0 1) two (fun t => t.psc.preempter == some 1) = true := by decide +kernel
theorem witness_GovernorState : (z8 0xA).psc.run = false ∧ two.psc.run = true ∧ two.boot.stage ≠ 0 := by decide
theorem test_governor : after (.govStateWrite 0 2 0x00030002) (z8 0xA) (fun t => (getLayer t 0).down == [2, 3, 0]) = true := by
  decide +kernel
/-- A swap to variant 1, which enables array 0 in place of nothing. -/
def swapping (run : Bool) : State :=
  let s := world [(1, 1, [4, 4, 1, 0, 32, 0])] [] []
  { s with img := { s.img with swapTo := some 1 }, psc := { s.psc with run := run } }
def idleStep : State := standing (world [] [entryOf 1 1 0 0] []) [] none
theorem witness_PassageSelection :
    (idleStep).psc.stopIssue = false ∧ idleStep.psc.abortDue = false ∧ idleStep.psc.suspended = none ∧ (swapping true).psc.accepted = [] ∧
      (swapping false).psc.abortDue = false ∧ (resuming 0).psc.suspended ≠ none ∧ (idleStep).psc.issuing = none ∧ (idleStep).img.swapTo = none ∧
      selectPassage (refresh (idleStep)) = some 0 ∧ resolveVariant (idleStep) (pentry idleStep 0) = some 0 ∧
      (idleStep).img.variant = 0 ∧
      (let s := standing (world [] [entryOf 1 1 0 1] []) [] none
       selectPassage (refresh s) = some 0 ∧ resolveVariant s (pentry s 0) = some 1) ∧
      (z8 0xA).psc.run = false ∧ (swapping true).img.swapTo = some 1 ∧ (swapping true).psc.run = true ∧ swapClear (swapping true) 1 = true ∧
      variantUsesFailed (swapping true) 1 = false ∧ castChanges (swapping true) 1 0 = true ∧ castChanges (swapping true) 1 1 = false ∧
      (swapping false).psc.run = false ∧ (swapping true).isZ64 = false := by decide +kernel
theorem test_select : after .passageSelect (idleStep) (fun t => t.psc.issuing == some 0) = true ∧
    after .variantSwap (swapping true) (fun t => t.img.variant == 1) = true := by decide +kernel
/-- A bundle: slot 98 holds a word, the last of its passage. -/
def bundled (word : Nat) (blen : Nat) : State :=
  let e := (entryOf 1 1 0 0).take 16 ++ leBytes 4 blen ++ (entryOf 1 1 0 0).drop 20
  standing (world [] [e] [(0x8000, List.replicate 12 0 ++ [4, 0, 1, 1] ++ leBytes 8 word)]) [(0, .running)] (some 0)
/-- A NOTIFY to a core whose queue is full. -/
def notifying : State :=
  let s := bundled (3 * 2 ^ 60) 24
  setCore s 0 { Core.reset with notify := List.replicate 16 0 }
/-- The last bundle issued 4,097 ACLK ago, with the handshake of a ramp enabled. -/
def longIdle : State :=
  let s := setLive (bundled (2 ^ 60 + 5) 24) 0x2A0000 1
  { s with clock := { s.clock with aclk := 4097 }, regs := { s.regs with seen := [(0x2A0000, 1)] } }
/-- The same without the handshake: the ramp starts at once, with this many ACLK gone by. -/
def restarting (aclk : Nat) : State :=
  let s := bundled (2 ^ 60 + 5) 24
  { s with clock := { s.clock with aclk := aclk }, regs := { s.regs with seen := [(0x2A0004, 0x80000)] } }
/-- What the start of a ramp makes of the power state. -/
def begun (s : State) : State :=
  { s with pwr := { s.pwr with r := (aclkReg s 0x2A0004).toNat / 65536 % 16, waiting := false, began := s.clock.aclk } }
/-- A GAP holds the next bundle. -/
def gapped : State := let s := bundled (2 ^ 60 + 5) 24; setPassage s 0 { getPassage s 0 with gap := 5 }
theorem witness_BundleIssueUnit_ramp :
    (∀ n ∈ [4097, 4098], mayIssue (restarting n) 0 = true ∧ powerHolds (restarting n) = false ∧ bundleWaits (restarting n) (getPassage (restarting n) 0) = false ∧
      4096 < n - max (restarting n).psc.lastIssue (restarting n).pwr.began ∧ (restarting n).clock.aclk = n ∧ (aclkReg (restarting n) 0x2A0000).getLsbD 0 = false ∧
      (bundleHold (restarting n) (bundleSlots (bundleAt (restarting n) 0x8000) 0 1)).2 = none) ∧
      isBubble (begun (restarting 4097)) = true ∧ isBubble (begun (restarting 4098)) = false ∧
      gapped.clock.aclk < (getPassage gapped 0).gap ∧ powerHolds gapped = false ∧ gapped.img.swapTo = none ∧ mayIssue gapped 0 = true ∧
      (getPassage gapped 0).loadTill ≤ gapped.clock.aclk ∧ (getPassage gapped 0).rowTill ≤ gapped.clock.aclk ∧ (getPassage gapped 0).stuck = false := by decide +kernel
theorem witness_BundleIssueUnit :
    let s := bundled (2 ^ 60 + 5) 24
    s.psc.issuing = some 0 ∧ mayIssue s 0 = true ∧ powerHolds s = false ∧ s.img.swapTo = none ∧ (getPassage s 0).stuck = false ∧
      (getPassage s 0).gap ≤ s.clock.aclk ∧ (getPassage s 0).loadTill ≤ s.clock.aclk ∧ (getPassage s 0).rowTill ≤ s.clock.aclk ∧ s.psc.abortDue = false ∧ bundleReserved s (bundleAt s 0x8000) = false ∧ (getPassage s 0).ptr = 0x8000 ∧
      bundleOk s (bundleAt s 0x8000) (pentry s 0) 0 = true ∧ (pentry s 0).bundles = 0x8000 ∧
      (bundleHold s (bundleSlots (bundleAt s 0x8000) 0 1)).2 = none ∧ s.clock.aclk - max s.psc.lastIssue s.pwr.began ≤ 4096 ∧
      bundleWaits s (getPassage s 0) = false ∧ (mapAddr s 0x8000 (bundleAt s 0x8000).size).isSome = true ∧
      bundleWaits s { getPassage s 0 with fetchTill := 1 } = true ∧ 4096 < (longIdle).clock.aclk - max (longIdle).psc.lastIssue longIdle.pwr.began ∧
      (aclkReg longIdle 0x2A0000).getLsbD 0 = true ∧ longIdle.pins.rampAck = false ∧ mayIssue longIdle 0 = true ∧
      bundleWaits longIdle (getPassage longIdle 0) = false ∧ powerHolds longIdle = false ∧
      (bundleHold longIdle (bundleSlots (bundleAt longIdle 0x8000) 0 1)).2 = none ∧
      bundleOk (bundled 0 32) (bundleAt (bundled 0 32) 0x8000) (pentry (bundled 0 32) 0) 0 = false ∧
      powerHolds { s with pwr := { s.pwr with paused := true } } = true ∧ mayIssue notifying 0 = true ∧
      bundleOk notifying (bundleAt notifying 0x8000) (pentry notifying 0) 0 = true ∧
      bundleReserved notifying (bundleAt notifying 0x8000) = false ∧
      (bundleHold notifying (bundleSlots (bundleAt notifying 0x8000) 0 1)).2 = some 13 := by decide +kernel
theorem test_issue : after .bundleIssue (bundled (2 ^ 60 + 5) 24) (fun t =>
    t.psc.issued == 1 && t.psc.accepted.map (·.index) == [98] && (getPassage t 0).status == .ended) = true := by decide +kernel
theorem witness_ControlSlots :
    (handed (z8 0xA) [slotOf 5 5 0]).psc.accepted = [slotOf 5 5 0] ∧ (slotOf 98 98 (2 ^ 60 + 5)).index = 98 ∧
      fld (slotOf 98 98 (2 ^ 60 + 5)).word.toNat 63 60 = 1 ∧ fld (slotOf 98 98 (3 * 2 ^ 60 + 9)).word.toNat 63 60 = 3 ∧
      fld (slotOf 5 5 0).word.toNat 63 60 = 0 := by decide
theorem test_control : after .notify (handed (z8 0xA) [slotOf 98 98 (3 * 2 ^ 60 + 2 ^ 58 + 9)]) (fun t => (getCore t 1).notify == [9]) = true ∧
    after .gap (handed (z8 0xA) [slotOf 98 98 (2 ^ 60 + 5)]) (fun t => (getPassage t 0).gap == 5) = true := by decide +kernel
/-- A stop keeps an operation of a passage that has ended, for the resume. -/
def savedBurst : State :=
  setArray (standing two [(0, .ended)] none) 0
    { ArrayState.reset with saved := { Susp.none with ops := [{ id := 7, passage := 0, slot := 0, kind := .burst 0, writes := [] }] } }
theorem witness_PassageEnds :
    savedOps (standing two [(0, .ended)] none) 0 = [] ∧ savedOps savedBurst 0 ≠ [] ∧ hasOps savedBurst 0 = false ∧
    hasOps (standing two [(0, .ended)] none) 0 = false ∧ (standing two [(0, .ended)] none).rlp.range = none ∧
      (standing two [(0, .ended)] none).psc.committed = false ∧ (getPassage (standing two [(0, .ended)] none) 0).status = .ended ∧
      (getPassage (standing two [(0, .ended)] none) 0).spec = false ∧ (getPassage (standing two [(0, .undoing)] none) 0).status = .undoing := by
  decide +kernel
theorem test_passages : after (.passageComplete 0) (standing two [(0, .ended), (1, .running)] none) (fun t =>
      (getPassage t 0).status == .completed) = true := by decide +kernel
/-- The last passage of a committed step has ended. -/
def closing : State :=
  let s := standing (world [] [entryOf 4 1 0 0] []) [(0, .ended)] none
  { s with psc := { s.psc with committed := true } }
theorem witness_PassageEnds_boundary : hasOps closing 0 = false ∧ savedOps closing 0 = [] ∧ (getPassage closing 0).status = .ended ∧
    (getPassage closing 0).spec = false ∧ closing.psc.committed = true ∧ closing.psc.stepOn = true ∧ ptCount closing = 1 ∧
    closing.rlp.groups.all (gatherDone closing) = true ∧ gatherWrites closing = false ∧
    (getVer { closing with vers := [(3, { TensorVer.reset with updating := true })] } 3).updating = true ∧
    { closing.img with swapPending := true, shadow := some [1] }.shadow = some [1] ∧ closing.img.swapPending = false := by decide +kernel
theorem test_boundary : after (.passageComplete 0) closing (fun t => t.psc.step == 1 && !t.psc.committed && !t.psc.run) = true := by
  decide +kernel
/-- Units of staging slots were given out and not returned. -/
def unbalanced (excused : Bool) : State :=
  { z8 0xA with ras := { (z8 0xA).ras with units := [(2, { Units.none with issued := 1 })], excused := if excused then [2] else [] } }
theorem witness_PassageEnds_audit : auditOk (unbalanced false) 2 = false ∧ 2 ∉ (unbalanced false).ras.excused ∧
    auditOk (unbalanced true) 2 = false ∧ 2 ∈ (unbalanced true).ras.excused := by decide +kernel
/-- A ladder of two rungs, and a layer's rule with one sub-rule on a stream, of up and down thresholds 1 and `down`. -/
def steerImage : List (Nat × Nat × List Byte) := [(8, 0xFF, [1, 0] ++ List.replicate 14 0 ++ [2, 0] ++ List.replicate 110 0)]
def subOf (down : Nat) (stream : List Byte) : List Byte :=
  [1, 1] ++ leBytes 2 down ++ List.replicate 8 0 ++ stream ++ List.replicate 6 0xFF ++ List.replicate 4 0
def ruleWith (dwell : Nat) (sub : List Byte) : List Byte := [0, 0, 1, 0] ++ leBytes 2 dwell ++ List.replicate 10 0 ++ sub ++ List.replicate 56 0
def noSub : List Byte := List.replicate 24 0
/-- The record of stream 0, which clipped once. -/
def clippedOnce : List (Nat × List Byte) := [(0x60000, List.replicate 0x140 0 ++ [1] ++ List.replicate 0x2F 0)]
/-- One layer at a rung, with its lock byte. -/
def steering (lock rung : Nat) (rule : List Byte) (rec_ : List (Nat × List Byte) := []) : State :=
  let s := world steerImage [] (rec_ ++ [(0x40000, rule), (0x50000, [0xFF, 0xFF, 0, 6, 1, 1, 0, 0] ++ List.replicate 24 0)])
  { s with
    psc := { s.psc with sample := { s.psc.sample with regs := [(0x050000, 0x50000), (0x050008, 1), (0x050010, 0x60000), (0x050018, 0x40000),
      (0x050020, 1), (0x050028, 0x70000)] } },
    gov := { s.gov with layers := [(0, { Layer.reset with fresh := false, rung := rung })], lockSmp := [(0, BitVec.ofNat 32 lock)] } }
/-- The layer's pending rung and since after the decision. -/
def steered (s : State) : Option Nat × Nat := let y := getLayer (governLayer s 0) 0; (y.pending, y.since)
theorem witness_PassageEnds_governor :
    ruleEnabled (z8 0xA) 0 = false ∧
      (lockByte (steering 11 1 (ruleWith 1 noSub)) 0).testBit 0 = true ∧
      fieldAt (ladderBytes (liveImg (steering 11 1 (ruleWith 1 noSub))) 0) 0 1 - 1 = 1 ∧
      steered (steering 11 1 (ruleWith 1 noSub)) = (none, 1) ∧ steered (steering 3 1 (ruleWith 1 noSub)) = (none, 1) ∧
      steered (steering 1 1 (ruleWith 1 noSub)) = (some 0, 0) ∧ (lockByte (steering 0 1 (ruleWith 1 noSub)) 0).testBit 0 = false ∧
      steered (steering 0 1 (ruleWith 1 noSub)) = (none, 1) ∧ steered (steering 0 0 (ruleWith 5 (subOf 2 [0xFF, 0xFF]))) = (none, 1) ∧
      (let s := steering 0 0 (ruleWith 1 (subOf 2 [0, 0])) clippedOnce
       ruleEnabled s 0 = true ∧ 1 ≤ (runsOf s (ruleBytes s 0) (getLayer s 0) 0).1 ∧ rungIndex s 0 0 = 0) ∧
      steered (steering 0 1 (ruleWith 1 (subOf 1 [0xFF, 0xFF]))) = (some 0, 0) ∧
      steered (steering 0 1 (ruleWith 1 (subOf 2 [0xFF, 0xFF]))) = (none, 1) := by decide +kernel
/-- Stream 0 keeps its format and takes its next scale. -/
theorem witness_PassageEnds_scale : efSize (steering 0 0 noSub) = 0 ∧ (streamOf (steering 0 0 noSub) 0).delayed = true ∧
    (waitingRecords (steering 0 0 noSub) 3).length < 8 := by decide +kernel
theorem witness_DisabledArray :
    (handed (world [] [] []) [slotOf 3 3 (2 ^ 60)]).psc.accepted = [slotOf 3 3 (2 ^ 60)] ∧ (slotOf 3 3 (2 ^ 60)).index < 64 ∧
      (castOf (world [] [] []) (3 : Fin 64).val).enabled = false ∧ fld (slotOf 3 3 (2 ^ 60)).word.toNat 63 60 = 1 ∧
      fld (slotOf 3 3 (2 * 2 ^ 60)).word.toNat 63 60 = 2 := by decide +kernel
theorem test_disabled : after (.load 3) (handed (world [] [] []) [slotOf 3 3 (2 ^ 60)]) (fun t => (waitingRecords t 0x10).length == 1) = true := by
  decide +kernel
/-! Arrays, the sump and vector engines. -/

/-- A context of a kind without a tensor extent: partition 0, the plain stream, a row pitch. -/
def contextOf (kind pitch : Nat) : List Byte :=
  leBytes 1 kind ++ [0, 0xFF, 0xFF] ++ List.replicate 8 0 ++ leBytes 4 pitch ++ List.replicate 24 0 ++ (if kind = 1 then [0xFF, 0xFF] else [0, 0]) ++
    List.replicate 4 0 ++ (if kind = 1 then [0] else [0xFF]) ++ List.replicate 17 0
/-- Array 0 enabled for FP4 with FP4 in chunks of 64, one feeder descriptor, all ports, a partition of 8 slots in slab 0. -/
def arrayImage : List (Nat × Nat × List Byte) :=
  [(1, 0, [4, 4, 1, 0, 64, 0]), (2, 0, [1, 0]), (3, 0, List.replicate 11 0xFF), (4, 0, List.replicate 64 0 ++ [1, 0, 0, 0, 8, 0, 0, 0, 4, 0])]
def arraysOn (ctxs : List Byte) (l : List Slot) (x : ArrayState) (chunks : List Chunk) (groups : Tab Group) : State :=
  let s := world arrayImage [entryOf 1 1 0 0] [(0x4000, ctxs)]
  { s with
    psc := { s.psc with accepted := l }, sump := { s.sump with arrays := [(0, x)], chunks := chunks, groups := groups } }
def arrays (l : List Slot) (x : ArrayState) (chunks : List Chunk) (groups : Tab Group) : State :=
  arraysOn (contextOf 1 0 ++ contextOf 2 5120) l x chunks groups
/-- Context 0 is that of an outlier pass whose list is empty. -/
def outlying (l : List Slot) (x : ArrayState) : State :=
  arraysOn ((contextOf 1 0).take 0x2C ++ [1, 0] ++ (contextOf 1 0).drop 0x2E) l x [] []
def somePass (complete : Bool) : Pass :=
  { uid := 0, op := 1, passage := 0, ctx := 0, fdesc := 0, target := 0, ow := false, kt := 0, nt := 0, cols := [], scale := [],
    complete := complete }
def loadingState (complete : Bool) (feeder : List FeedRow) : State :=
  arrays [] { ArrayState.reset with loading := some (somePass complete), feeder := feeder } [] []
theorem witness_LoadsAndFeederRows :
    let s := arrays [slotOf 0 0 (2 ^ 60)] ArrayState.reset [] []
    s.psc.accepted = [slotOf 0 0 (2 ^ 60)] ∧ (castOf s (0 : Fin 64).val).enabled = true ∧ (ctxOf s 0 (fld (2 ^ 60) 42 35)).good 1 = true ∧
      fld (slotOf 0 0 (2 ^ 60)).word.toNat 63 60 = 1 ∧ (getArray (loadingState false []) (0 : Fin 64).val).loading = some (somePass false) ∧
      nextPass (getArray (loadingState true []) 0) = some (somePass true) ∧ 0 < feederCount s ∧
      (getArray (loadingState true []) 0).feeder.length < 64 ∧
      64 ≤ (getArray (loadingState true (List.replicate 64 { m := 0, codes := [], scale := [], bad := none })) 0).feeder.length ∧
      (slotOf 0 0 (2 ^ 60)).index < 64 ∧ emptyOutlier s (ctxOf s 0 (fld (2 ^ 60) 42 35)) = false ∧
      (let u := outlying [slotOf 0 0 (2 ^ 60)] ArrayState.reset
       u.psc.accepted = [slotOf 0 0 (2 ^ 60)] ∧ (castOf u 0).enabled = true ∧ (ctxOf u 0 (fld (2 ^ 60) 42 35)).good 1 = true ∧
        emptyOutlier u (ctxOf u 0 (fld (2 ^ 60) 42 35)) = true ∧ (getArray u 0).loading = none) ∧
      (castOf (loadingState true []) 0).enabled = true := by
  decide +kernel
/-- Array 0, with BF16 streamed, loading the outlier pass of an activation stream whose list names one channel; the engine holds the
element of row 0 and position 0 of its side tensor. -/
def outlierRow : State :=
  let s := world ([(1, 0, [7, 4, 1, 0, 64, 0]),
      (2, 0, [1, 0] ++ List.replicate 70 0 ++ [2, 0, 1, 0, 1, 0, 1, 0] ++ List.replicate 16 0 ++ [2, 0, 1, 0, 1, 0] ++ List.replicate 26 0)] ++
      arrayImage.drop 2 ++ steerImage) [entryOf 1 1 0 0]
    [(0x4000, (contextOf 1 0).take 0x28 ++ [0, 0, 0, 0, 1, 0] ++ (contextOf 1 0).drop 0x2E), (0x40000, ruleWith 1 noSub),
      (0x50000, [0, 0, 1, 0, 0, 1, 0, 0, 1, 0] ++ List.replicate 22 0)]
  let m := s.psc.sample.mem ++ bytesAt 0x70104 ([1, 0] ++ List.replicate 258 0)
  { s with
    hostMem := m,
    psc := { s.psc with sample := { mem := m, phase := false, regs := s.psc.sample.regs ++ [(0x050000, 0x50000), (0x050008, 1), (0x050018, 0x40000),
      (0x050020, 1), (0x070000, 0x70000), (0x070008, 2)] } },
    gov := { s.gov with outlier := [(2 ^ 40 * 64, 5)] },
    sump := { s.sump with arrays := [(0, { ArrayState.reset with loading := some (somePass true) })] } }
theorem outlierRow_list : passList outlierRow (somePass true) = some [0] := by
  have hm : mapIn outlierRow outlierRow.psc.sample.phase (smpPair outlierRow 0x070000 + 260 * 1) 260 = some 0x70104 := by decide +kernel
  have hb : outlierBytes outlierRow 1 = [1, 0] ++ List.replicate 258 0 := by
    have h : hostBytesOf outlierRow.hostMem 0x70104 260 = [1, 0] ++ List.replicate 258 0 :=
      hostBytesOf_bytesAt 0x70104 260 ([1, 0] ++ List.replicate 258 0) _ (by decide +kernel) (by decide +kernel)
    have e : outlierRow.psc.sample.mem = outlierRow.hostMem := rfl
    rw [← h, outlierBytes, inBytes, hm]
    simp [e, hostBytesOf]
  have ho : outlierOk outlierRow 1 = true := by rw [outlierOk, hb]; decide +kernel
  have hs : (streamOf outlierRow (passCtx outlierRow (somePass true)).stream2).outlier = 1 ∧ (passCtx outlierRow (somePass true)).outlier = 1 ∧
      (streamOf outlierRow (passCtx outlierRow (somePass true)).stream2).role = 1 ∧ outlierMisnamed outlierRow 1 = false := by decide +kernel
  rw [passList, outlierList, hs.1, hs.2.1, hs.2.2.1, hs.2.2.2, ho, hb]
  decide +kernel
theorem witness_LoadsAndFeederRows_outliers :
    passList (loadingState true []) (somePass true) = none ∧ (castOf outlierRow 0).fs = 7 ∧ (castOf outlierRow 0).enabled = true ∧
      nextPass (getArray outlierRow 0) = some (somePass true) ∧ (somePass true).fdesc < feederCount outlierRow ∧
      (getArray outlierRow 0).feeder = [] ∧
      (∀ m < 2, ∀ k < 2, feedAddr (feederDesc outlierRow (somePass true).fdesc) m k = .off 0) ∧ isDw outlierRow 0 = false ∧
      feedAddr (feederDesc outlierRow (somePass true).fdesc) 2 0 = .zero ∧
      sideEntry outlierRow (passCtx outlierRow (somePass true)).stream2 0 0 0 = some 5 ∧
      sideEntry outlierRow (passCtx outlierRow (somePass true)).stream2 0 1 0 = none ∧ [0].length ≤ 1 ∧ 0 < [0].length := by
  decide +kernel
theorem test_outlier_row : (passEntry outlierRow 0 (somePass true) 0 0).1 = 5 ∧ (passEntry outlierRow 0 (somePass true) 0 1).1 = 0 := by
  rw [passEntry, passEntry, outlierRow_list]
  decide +kernel
theorem test_load : after (.stationaryLoadComplete 0) (loadingState false []) (fun t =>
    (getArray t 0).loading == some (somePass true)) = true ∧
    after (.load 0) (outlying [slotOf 0 0 (2 ^ 60)] ArrayState.reset) (fun t => (getArray t 0).loading == none && t.psc.ops == []) = true := by
  decide +kernel
/-- A BURST of array 0 waits, with this pass loaded. -/
def bursting (x : ArrayState) : State := arrays [slotOf 0 0 (2 * 2 ^ 60)] x [] []
def burstState : State := arrays [slotOf 0 0 (2 * 2 ^ 60)] { ArrayState.reset with loading := some (somePass true) } [] []
theorem witness_Burst :
    burstState.psc.accepted = [slotOf 0 0 (2 * 2 ^ 60)] ∧ fld (slotOf 0 0 (2 * 2 ^ 60)).word.toNat 63 60 = 2 ∧
      (castOf burstState (0 : Fin 64).val).enabled = true ∧ nextPass (getArray burstState 0) = some (somePass true) ∧
      (somePass true).fdesc < feederCount burstState ∧ passList burstState (somePass true) ≠ some [] ∧ (getArray burstState 0).stopped = false ∧
      (slotOf 0 0 (2 * 2 ^ 60)).index < 64 ∧
      (let u := bursting { ArrayState.reset with loading := some (somePass true), stopped := true }
       (getArray u 0).stopped = true ∧ u.sump.chunks = [] ∧ u.psc.ops = [] ∧ nextPass (getArray u 0) = some (somePass true)) ∧
      nextPass (getArray (bursting ArrayState.reset) 0) = none ∧
      feederCount (bursting { ArrayState.reset with loading := some { somePass true with fdesc := 1 } }) ≤ 1 ∧
      passList (outlying [slotOf 0 0 (2 * 2 ^ 60)] { ArrayState.reset with loading := some (somePass true) }) (somePass true) = some [] := by
  decide +kernel
def someChunk (stage : ChunkStage) (wide : Bool) (row : Int) : Chunk :=
  { id := { array := 0, row := 0, col := 0, seg := 1 }, op := 1, pass := 0, target := 0, row := row, ow := true, wide := wide, lsb := 0,
    scale := 0, word := 5, resid := 5, korigin := 0, fails := 0, take := 1, live := true, stage := stage }
/-- The chunk of segment 0 of the same element, which must go first. -/
def earlier (c : Chunk) : Chunk := { c with id := { c.id with seg := 0 } }
/-- A chunk of array 0 failed, while a row of a burst enters or none does, in a run or not, stopped or not. -/
def replaying (enters run stopped : Bool) : State :=
  let last : Option LastBurst := if enters then some { op := 1, passage := 0, at_ := 0, m := 0, rows := 1, full := [true], takes := [1], slot := 1, done := 0 } else none
  let s := arrays [] { ArrayState.reset with last := last, stopped := stopped } [someChunk .failed false 0] []
  { s with psc := { s.psc with run := run } }
theorem witness_ResidueCheck :
    let c := someChunk .latched false 0
    (arrays [] ArrayState.reset [c] []).sump.chunks.find? (fun d => d.id == c.id && !d.wide && (d.stage == .latched || d.stage == .replayed)) =
        some c ∧ ((BitVec.ofInt 96 (c.word.toInt + 0)).toInt % 31).toNat = c.resid ∧
      ((BitVec.ofInt 96 (c.word.toInt + 1)).toInt % 31).toNat ≠ c.resid ∧ c.fails < 3 ∧
      (getArray (arrays [] ArrayState.reset [c] []) 0).stopped = false ∧
      (columnFaults (arrays [] ArrayState.reset [c] []) 0 0 (castOf (arrays [] ArrayState.reset [c] []) 0).c).ras.perm = [] ∧
      (arrays [] ArrayState.reset [someChunk .failed false 0] []).sump.chunks.find? (fun d => d.id.array == (0 : Fin 64).val && d.stage == .failed) =
        some (someChunk .failed false 0) ∧ { c with fails := 3 }.fails = 3 ∧
      (getArray (replaying false true true) 0).stopped = true ∧ rowsEntering (replaying true true false) (0 : Fin 64).val = true ∧
      (∀ run, rowsEntering (replaying false run false) 0 = false ∧ (replaying false run false).psc.run = run ∧
        (getArray (replaying false run false) 0).stopped = false) ∧
      (∀ d ∈ (arrays [] ArrayState.reset [c] []).sump.chunks, d.id.array = 0 → d.stage ≠ .failed) := by decide +kernel
theorem test_residue :
    let s := arrays [] ArrayState.reset [someChunk .latched false 0] []
    after (.residueCheck (someChunk .latched false 0).id 0) s (fun t => t.sump.chunks.map (·.stage) == [.passed]) = true ∧
      after (.residueCheck (someChunk .latched false 0).id 1) s (fun t => t.sump.chunks.map (·.stage) == [.failed]) = true ∧
      after (.rowReplay 0) (replaying false true false) (fun t => t.sump.chunks.map (·.stage) == [.replayed] && t.clock.aclk == 1) = true := by
  decide +kernel
def openOf (rows : Nat) : Group := { Group.closed with isOpen := true, rowCount := rows, inflight := 1 }
/-- The pass of the chunk has been reported out of range. -/
def bounded (c : Chunk) : State :=
  let s := arrays [] ArrayState.reset [c] [(0, openOf 0)]
  { s with sump := { s.sump with boundPass := [0] } }
theorem witness_Promotion :
    let c := someChunk .passed false 0
    let s := arrays [] ArrayState.reset [c] [(0, openOf 4)]
    let u := arrays [] ArrayState.reset [c, earlier c] [(0, openOf 4)]
    s.sump.chunks.find? (fun d => d.id == c.id && (if d.wide then d.stage == .latched else d.stage == .passed)) = some c ∧
      mustWait s c = false ∧ mustWait u c = true ∧ (groupOf s 0).isOpen = true ∧ c.row < (groupOf s 0).rowCount ∧ 0 ≤ c.row ∧
      (groupOf s 0).promotions ≤ 2 ^ 23 ∧ ((groupOf (arrays [] ArrayState.reset [c] [(0, openOf 0)]) 0).rowCount : Int) ≤ c.row ∧
      s.sump.boundPass.contains c.pass = false ∧ c.live = true ∧
      (bounded c).sump.boundPass.contains c.pass = true ∧
      (someChunk .passed false (-1)).row < 0 ∧ (groupOf (arrays [] ArrayState.reset [c] []) 0).isOpen = false ∧
      (groupOf s 0).promotions + (castOf s 0).segs ≤ 2 ^ 23 ∧ (let v := arrays [] ArrayState.reset [c] [(0, { openOf 4 with promotions := 2 ^ 23 })]
        mustWait v c = false ∧ 2 ^ 23 < (groupOf v 0).promotions + (castOf v 0).segs ∧ (groupOf v 0).promotions ≤ 2 ^ 23) ∧
      2 ^ 23 < (groupOf (arrays [] ArrayState.reset [c] [(0, { openOf 4 with counted := [0], promotions := 2 ^ 23 + 1 })]) 0).promotions ∧
      { c with live := false }.live = false ∧ c.wide = false ∧ (someChunk .latched true 0).wide = true ∧
      (groupOf (arrays [] ArrayState.reset [c] [(0, { openOf 4 with counted := [0] })]) 0).counted.contains c.pass = true := by
  decide +kernel
theorem test_promotion :
    after (.chunkPromote (someChunk .passed false 0).id) (arrays [] ArrayState.reset [someChunk .passed false 2] [(0, openOf 4)]) (fun t =>
      t.sump.chunks == [] && (groupOf t 0).inflight == 0 && t.sump.totals.map (·.1) == [totKey 0 2 0]) = true := by decide +kernel
def asZ64 (s : State) : State := { s with silicon := { s.silicon with cls := .z64 } }
/-- A slot of slab 0's sump: operation, array 0, group 0, and more bits. -/
def sumpSlot (op more : Nat) : Slot := slotOf 88 88 (op * 2 ^ 60 + more)
def sumpState (op more : Nat) (groups : Tab Group) : State :=
  arrays [sumpSlot op more] ArrayState.reset [] (groups.map (fun g => (g.1, { g.2 with inflight := 0 })))
theorem witness_GroupControl :
    (sumpState 1 (4 * 2 ^ 33) []).psc.accepted = [sumpSlot 1 (4 * 2 ^ 33)] ∧ (sumpSlot 1 0).index = 88 + (0 : Fin 8).val ∧
      openRefused (sumpState 1 (4 * 2 ^ 33) []) 0 0 0 4 = false ∧ openRefused (sumpState 1 0 []) 0 0 0 0 = true ∧
      fld (sumpSlot 1 (4 * 2 ^ 33)).word.toNat 41 33 = 4 ∧ (sumpState 1 0 []).isZ64 = false ∧
      (groupOf (sumpState 2 0 [(0, openOf 4)]) 0).isOpen = true ∧ (groupOf (sumpState 2 0 []) 0).isOpen = false ∧
      (groupOf (sumpState 2 0 [(0, openOf 4)]) 0).rowBase + (groupOf (sumpState 2 0 [(0, openOf 4)]) 0).rowCount ≤ 384 ∧
      (∀ s ∈ [sumpState 1 (4 * 2 ^ 33) [], sumpState 1 0 [], sumpState 2 0 [(0, openOf 4)], sumpState 2 0 []], sumpReady s (sumpSlot 1 0) = true ∧
        sumpReady s (sumpSlot 2 0) = true) ∧ sumpReady (asZ64 (sumpState 3 0 [])) (sumpSlot 3 0) = true ∧
      sumpReady (sumpState 3 0 []) (sumpSlot 3 0) = true ∧ sumpReady (asZ64 (sumpState 1 0 [])) (sumpSlot 1 0) = true ∧
      sumpReady (arrays [sumpSlot 2 0] ArrayState.reset [] [(0, openOf 4)]) (sumpSlot 2 0) = false ∧
      (asZ64 (sumpState 3 0 [])).isZ64 = true ∧
      (groupOf (asZ64 (sumpState 3 0 [])) 0).rowBase + (groupOf (asZ64 (sumpState 3 0 [])) 0).rowCount ≤ 384 := by decide +kernel
theorem test_open : after (.openGroup 0) (sumpState 1 (4 * 2 ^ 33) []) (fun t => (groupOf t 0).isOpen && (groupOf t 0).rowCount == 4) = true ∧
    after (.close 0) (sumpState 2 0 [(0, openOf 4)]) (fun t => !(groupOf t 0).isOpen) = true := by decide +kernel
/-- An operation at work. -/
def working (k : OpKind) (groups : Tab Group) : State :=
  let s := arrays [] ArrayState.reset [] groups
  { s with psc := { s.psc with ops := [{ id := 7, passage := 0, slot := 88, kind := k, writes := [] }] } }
def busyOf (g : Group) : Group := { g with busy := [7] }
theorem witness_Drain :
    (groupOf (sumpState 4 (2 ^ 43) [(0, openOf 1)]) 0).isOpen = true ∧ (sumpSlot 4 (2 ^ 43)).sumpKey = 0 ∧
      ((sumpSlot 4 (2 ^ 43)).drain (sumpState 4 (2 ^ 43) [(0, openOf 1)])).cx.good 2 = true ∧
      sumpReady (sumpState 4 (2 ^ 43) [(0, openOf 1)]) (sumpSlot 4 (2 ^ 43)) = true ∧ sumpReady (sumpState 4 (2 ^ 43) []) (sumpSlot 4 (2 ^ 43)) = true ∧
      sumpReady (sumpState 4 0 [(0, openOf 1)]) (sumpSlot 4 0) = true ∧
      (findOp (working (.drain 0 0 1 0 false 0 0 [{ brow := 0, bcol := 0 }] false) [(0, busyOf (openOf 1))]) 7).isSome = true ∧
      (findOp (working (.drain 0 0 1 0 true 0 0 [] false) [(0, busyOf (openOf 1))]) 7).isSome = true ∧
      7 ∈ (groupOf (working (.drain 0 0 1 0 true 0 0 [] false) [(0, busyOf (openOf 1))]) (groupKey 0 0)).busy ∧
      (groupOf (sumpState 4 (2 ^ 43) []) 0).isOpen = false ∧
      ((sumpSlot 4 0).drain (sumpState 4 0 [(0, openOf 1)])).cx.good 2 = false := by decide +kernel
theorem test_drain : after (.drain 0) (sumpState 4 (2 ^ 43) [(0, openOf 1)]) (fun t =>
      (groupOf t 0).busy == [1] && (getVe t 0).ftq.length == 1) = true ∧
    after (.drainComplete 7) (working (.drain 0 0 1 0 true 0 0 [] false) [(0, busyOf (openOf 1))]) (fun t => !(groupOf t 0).isOpen) = true := by
  decide +kernel
/-- A combine of array 0's group 0 into its group 1. -/
def combineWord : Nat := 2 ^ 52 + 2 ^ 44 + 2 ^ 32
/-- A combine at work while another waits. -/
def combining : State :=
  let s := sumpState 7 combineWord [(0, openOf 1), (1, openOf 1)]
  { s with psc := { s.psc with ops := (working (.combine 1 [0] 0) []).psc.ops } }
/-- A chunk with `ow` issued before a reload of its group. -/
def overwriting : State := arrays [sumpSlot 6 (2 ^ 43)] ArrayState.reset [{ someChunk .latched false 0 with op := 0 }] [(0, openOf 1)]
theorem witness_SpillReloadCombine :
    let s := sumpState 5 (2 ^ 43) [(0, openOf 1)]
    let u := sumpState 7 combineWord [(0, openOf 1), (1, openOf 1)]
    (groupOf s (sumpSlot 5 (2 ^ 43)).sumpKey).isOpen = true ∧ sumpReady s (sumpSlot 5 (2 ^ 43)) = true ∧
      sumpReady (sumpState 6 (2 ^ 43) [(0, openOf 1)]) (sumpSlot 6 (2 ^ 43)) = true ∧ sumpReady u (sumpSlot 7 combineWord) = true ∧
      (sumpSlot 6 (2 ^ 43)).index = 88 + (0 : Fin 8).val ∧ (ctxOf s 0 (fld (sumpSlot 5 (2 ^ 43)).word.toNat 50 43)).good 2 = true ∧
      256 * 20 ≤ (ctxOf s 0 1).pitch ∧ signed 10 (fld (sumpSlot 6 (2 ^ 43)).word.toNat 40 31) = (openOf 1).anchor ∧
      (openOf 1).promotions < 2 ^ 23 ∧ s.isZ64 = false ∧ recordAt (ctxOf s 0 1) 20 0 0 + 20 ≤ windowBytes s 0 (ctxOf s 0 1).part ∧
      (working (.spill 0 0) [(0, busyOf (openOf 1))]).psc.ops.map (·.kind) = [.spill 0 0] ∧
      (working (.reload 0 0) []).psc.ops.map (·.kind) = [.reload 0 0] ∧
      7 ∈ (groupOf (working (.spill 0 0) [(0, busyOf (openOf 1))]) (groupKey 0 0)).busy ∧
      reloadWaits overwriting (sumpSlot 6 (2 ^ 43)) = true ∧ reloadWaits (sumpState 6 (2 ^ 43) [(0, openOf 1)]) (sumpSlot 6 (2 ^ 43)) = false ∧
      combinerBusy combining (sumpSlot 7 combineWord) = true ∧ combinerBusy u (sumpSlot 7 combineWord) = false ∧ combineMasked u (sumpSlot 7 combineWord) = false ∧
      (sumpSlot 7 combineWord).destKey :: (sumpSlot 7 combineWord).combineKeys = [1, 0] ∧
      (∀ k ∈ [1, 0], (groupOf u k).isOpen = true ∧ (groupOf u k).anchor = (groupOf u 1).anchor) ∧ routeOk u (sumpSlot 7 combineWord) = true ∧
      (groupOf u 1).promotions + sumNat ((sumpSlot 7 combineWord).combineKeys.map (fun k => (groupOf u k).promotions)) ≤ 2 ^ 23 ∧
      (∀ j ∈ [1, 0], 7 ∈ (groupOf (working (.combine 1 [0] 0) [(0, busyOf (openOf 1)), (1, busyOf (openOf 1))]) j).busy) := by
  decide +kernel
/-- A combine whose blocks a mask of the step removes, where host memory holds the mask. -/
def maskedCombine : Nat := combineWord + 2 * 2 ^ 24
def combineMask : State :=
  let s := world arrayImage [entryOf 1 1 0 0] [(0x4000, contextOf 1 0 ++ contextOf 2 5120 ++ (contextOf 2 5120).take 0x2A ++ [1, 0] ++ (contextOf 2 5120).drop 0x2C),
    (0x60000, [1]), (0x70020, [1, 0, 2, 0, 1, 0, 0, 0, 1, 0, 0, 0] ++ List.replicate 12 0 ++ leBytes 8 0x60000)]
  { s with
    psc := { s.psc with
      accepted := [sumpSlot 7 maskedCombine],
      sample := { s.psc.sample with regs := s.psc.sample.regs ++ [(0x040030, 0x70000), (0x040038, 2)] } } }
theorem witness_SpillReloadCombine_masked (h : Config.hostHas 0x60000 = true) :
    combineMasked combineMask (sumpSlot 7 maskedCombine) = true ∧ sumpReady combineMask (sumpSlot 7 maskedCombine) = true := by
  have hm : maskOk combineMask 1 = true := by
    have ha : fieldAt (maskBytes combineMask 1) 0x18 8 = 0x60000 := by decide +kernel
    have hr : bitAt (fieldAt (maskBytes combineMask 1) 2 1) 0 = false := by decide +kernel
    unfold maskOk mapInHost
    simp only [ha, hr, h, Bool.and_eq_true, Bool.or_eq_true, Bool.not_false, Bool.true_or, and_true]
    decide +kernel
  have hc : combineMasked combineMask (sumpSlot 7 maskedCombine) = true := by
    have hx : (ctxOf combineMask (sumpSlot 7 maskedCombine).passage ((sumpSlot 7 maskedCombine).bits 31 24)).mask = 1 := by decide +kernel
    rw [combineMasked, hx]
    unfold blockMasked
    rw [hm]
    decide +kernel
  refine ⟨hc, ?_⟩
  rw [sumpReady, Slot.orderKeys, hc]
  decide +kernel
/-- What a sump slot that is refused finds: no group, no such context, another anchor, no route. -/
theorem witness_SpillReloadCombine_refused :
    (∀ op ∈ [5, 6], sumpReady (sumpState op (2 ^ 43) []) (sumpSlot op (2 ^ 43)) = true ∧ (groupOf (sumpState op (2 ^ 43) []) (sumpSlot op (2 ^ 43)).sumpKey).isOpen = false ∧
      sumpReady (sumpState op 0 [(0, openOf 1)]) (sumpSlot op 0) = true ∧ (groupOf (sumpState op 0 [(0, openOf 1)]) (sumpSlot op 0).sumpKey).isOpen = true ∧
      (ctxOf (sumpState op 0 [(0, openOf 1)]) 0 (fld (sumpSlot op 0).word.toNat 50 43)).good 2 = false) ∧
      (let w := 2 ^ 43 + 2 ^ 31
       let s := sumpState 6 w [(0, openOf 1)]
       sumpReady s (sumpSlot 6 w) = true ∧ (ctxOf s 0 (fld (sumpSlot 6 w).word.toNat 50 43)).good 2 = true ∧
        fld (sumpSlot 6 w).word.toNat 42 42 = 0 ∧ signed 10 (fld (sumpSlot 6 w).word.toNat 40 31) ≠ (groupOf s (sumpSlot 6 w).sumpKey).anchor) ∧
      (let sl := sumpSlot 7 combineWord
       let s := sumpState 7 combineWord [(0, openOf 1), (1, { openOf 1 with anchor := 1 })]
       combineMasked s sl = false ∧ sumpReady s sl = true ∧ (∀ k ∈ sl.destKey :: sl.combineKeys, (groupOf s k).isOpen = true) ∧
        routeOk s sl = true ∧ (∃ k ∈ sl.combineKeys, (groupOf s k).anchor ≠ (groupOf s sl.destKey).anchor)) ∧
      (let sl := sumpSlot 7 combineWord
       let s := sumpState 7 combineWord [(0, openOf 1)]
       sumpReady s sl = true ∧ combineMasked s sl = false ∧ (∃ k ∈ sl.destKey :: sl.combineKeys, (groupOf s k).isOpen = false)) ∧
      (let w := 2 ^ 52 + 2 ^ 32
       let s := sumpState 7 w [(0, openOf 1), (1, openOf 1)]
       sumpReady s (sumpSlot 7 w) = true ∧ combineMasked s (sumpSlot 7 w) = false ∧ routeOk s (sumpSlot 7 w) = false ∧
        (∀ k ∈ (sumpSlot 7 w).destKey :: (sumpSlot 7 w).combineKeys, (groupOf s k).isOpen = true)) ∧
      2 ^ 23 ≤ (groupOf (sumpState 6 (2 ^ 43) [(0, { openOf 1 with promotions := 2 ^ 23 })]) 0).promotions ∧
      sumpReady (sumpState 6 (2 ^ 43) [(0, { openOf 1 with promotions := 2 ^ 23 })]) (sumpSlot 6 (2 ^ 43)) = true := by
  decide +kernel
theorem test_combine : after (.combine 0)
    (let s := sumpState 7 combineWord [(0, openOf 1), (1, openOf 1)]
     { s with sump := { s.sump with totals := [(totKey 0 0 3, 9)] } }) (fun t => (groupOf t 1).busy == [1] && getTotal t (totKey 0 0 3) == 9) =
    true := by decide +kernel
/-- A vector slot of lane group 0 and descriptor 0, of a kind without operands, or an update of one tile. -/
def veSlot : Slot := slotOf 64 64 (2 ^ 60 + 2 ^ 56)
def vectorWorld (desc : List Byte) : State :=
  world arrayImage [entryOf 1 1 0 0] [(0x6000, desc), (0x20000, [1, 0, 1, 0, 1, 0, 0, 0] ++ leBytes 8 0x21000 ++ List.replicate 48 0),
    (0x21000, List.replicate 16 0), (0x22000, List.replicate 16 0)]
def vector (desc : List Byte) : State :=
  let s := vectorWorld desc
  { s with
    psc := { s.psc with
      accepted := [veSlot],
      sample := { mem := s.psc.sample.mem ++ bytesAt 0x30000 (List.replicate 256 0), phase := false,
                  regs := s.psc.sample.regs ++ [(0x040040, 0x30000), (0x040048, 0x20000)] } } }
def runDesc (kind : Nat) : List Byte :=
  leBytes 1 kind ++ [0, 0, 0, 1, 0, 1, 0, 1, 0, 1, 0, 1, 0] ++ List.replicate 14 0 ++ [0xFF, 0xFF, 0xFF, 0, 0xFF, 0xFF] ++ List.replicate 30 0
def updDesc : List Byte :=
  [6, 0, 0, 0, 0, 0, 0, 0, 0, 0, 0] ++ List.replicate 8 0xFF ++ [0, 0, 0xFF, 0xFF, 0, 1, 0, 0, 0, 1, 0, 0, 0] ++ List.replicate 32 0
def ranState : State :=
  let s := vector (runDesc 1)
  { s with psc := { s.psc with
    ops := [{ id := 7, passage := 0, slot := 64, kind := .run 0 1 0 0 true [5] 62 1 2 3, writes := [] }] } }
/-- A RUN of a kind on one finished tile, with this queue. -/
def onQueue (kind : Nat) (q : List FtqEntry) : State :=
  let s := vector ((runDesc kind).take 0x1C ++ [0xFE] ++ (runDesc kind).drop 0x1D)
  setVe s 0 { getVe s 0 with ftq := q }
def tileEntry (ready masked : Bool) : FtqEntry :=
  { op := 9, brow := 0, bcol := 0, ready := ready, stream := 0xFFFF, tid := 0, fmt := 9, scale := 0, codes := [], masked := masked }
/-- A RUN that lacks two tiles. -/
def lackingOp : Op := { id := 7, passage := 0, slot := 64, kind := .run 0 1 0 0 false [] 0 0 0 0, writes := [], need := 2 }
def lacking : State :=
  let s := onQueue 1 [tileEntry true false]
  { s with psc := { s.psc with accepted := [], ops := [lackingOp] } }
theorem witness_VectorRun_queue :
    (∀ k ∈ [1, 2, 3, 4, 5], ∀ q ∈ [[tileEntry true false], [tileEntry true true], [tileEntry true true, tileEntry true false], [tileEntry false false]],
      (onQueue k q).psc.accepted = [veSlot] ∧ veSlot.veKind (onQueue k q) = k ∧ findOp (onQueue k q) veSlot.op = none ∧
        (veSlot.veRun (onQueue k q)).d.ftq = true ∧ (veSlot.veRun (onQueue k q)).d.ftqTiles = 1 ∧ (getVe (onQueue k q) 0).ftq = q ∧
        (onQueue k q).psc.ops = []) ∧
      (tileEntry true false).ready = true ∧ (tileEntry true false).masked = false ∧ (tileEntry true true).masked = true ∧
      (tileEntry false false).ready = false ∧ lacking.psc.ops.filter (fun x => lacksTiles x 0) = [lackingOp] ∧
      findOp lacking lackingOp.id = some lackingOp ∧ (getVe lacking 0).ftq = [tileEntry true false] ++ [] ∧ 1 ≤ lackingOp.need ∧
      0 < lackingOp.need := by decide +kernel
theorem test_queue_run : after (.veMap 0) (onQueue 1 [tileEntry true true, tileEntry true false]) (fun t =>
      (getVe t 0).ftq == [] && t.psc.ops.length == 1) = true ∧
    after (.veMap 0) (onQueue 1 [tileEntry false false]) (fun t => (getVe t 0).ftq.length == 1 && t.psc.ops.map (·.need) == [1]) = true := by
  decide +kernel
theorem witness_VectorRun :
    (vector (runDesc 1)).psc.accepted = [veSlot] ∧ veSlot.index = 64 + (0 : Fin 8).val ∧ fld veSlot.word.toNat 63 60 = 1 ∧
      (∀ k ∈ [1, 2, 3, 4, 5], veSlot.veKind (vector (runDesc k)) = k ∧ (veSlot.veRun (vector (runDesc k))).d.ftq = false) ∧
      findOp (vector (runDesc 1)) veSlot.op = none ∧
      (findOp ranState 7).map (·.kind) = some (.run 0 1 0 0 true [5] 62 1 2 3) := by decide +kernel
theorem test_run : after (.runFinish 7) ranState (fun t => getScalar t 0 62 == 5 && (getVe t 0).sat == 3 && t.psc.ops == []) = true := by
  decide +kernel
theorem vector_versions : verOk (vector updDesc) 0 = true := by
  have h : smpPair (vector updDesc) 0x040040 + 256 * 0 = 0x30000 := by decide +kernel
  have h2 : smpBytes (vector updDesc) 0x30000 256 = List.replicate 256 0 :=
    hostBytesOf_bytesAt 0x30000 256 (List.replicate 256 0) (vectorWorld updDesc).psc.sample.mem List.length_replicate (by decide +kernel)
  rw [verOk, verBytes, h, h2]
  decide +kernel
/-- An update of tensor 0 has issued, and acquires of it wait. -/
theorem witness_VersionAcquire_issued : veSlot ∈ (vector updDesc).psc.accepted ∧ veSlot.updates (vector updDesc) 0 = true ∧
    verStash (vector updDesc) 0 = 0 ∧ (getVer (vector updDesc) 0).waiting = [] := by decide +kernel
/-- An embedding update whose row list counts more rows than its table has. -/
def embedDesc : List Byte := [6, 2] ++ (updDesc.take 0x15).drop 2 ++ [1] ++ updDesc.drop 0x16
def badRows : State :=
  let s := vector embedDesc
  { s with
    staging := { s.staging with bytes := bytesAt (stKey 0 0 0) [2, 0, 0, 0] },
    psc := { s.psc with sample := { s.psc.sample with
      mem := bytesAt 0x4000 (contextOf 1 0 ++ contextOf 2 5120) ++ (vectorWorld embedDesc).psc.sample.mem ++
        bytesAt 0x30000 (List.replicate 256 0) } } }
theorem badRows_versions : verOk badRows 0 = true := by
  have h : smpPair badRows 0x040040 + 256 * 0 = 0x30000 := by decide +kernel
  have h2 : smpBytes badRows 0x30000 256 = List.replicate 256 0 :=
    hostBytesOf_bytesAt 0x30000 256 (List.replicate 256 0) (bytesAt 0x4000 (contextOf 1 0 ++ contextOf 2 5120) ++ (vectorWorld embedDesc).psc.sample.mem)
      List.length_replicate (by decide +kernel)
  rw [verOk, verBytes, h, h2]
  decide +kernel
/-- The update of the slot goes on from tile 0. -/
def retrying : State :=
  let s := vector updDesc
  { s with
    psc := { s.psc with ops := [{ id := 1, passage := 0, slot := 64, kind := .run 0 1 0 0 false [] 0 0 0 0, writes := [] }] },
    ras := { s.ras with updFrom := some (1, 0) } }
theorem retrying_versions : verOk retrying 0 = true := vector_versions
theorem witness_VectorUpdate :
    let s := vector updDesc
    let u := veSlot.updRun s
    veSlot.veKind s = 6 ∧ findOp s veSlot.op = none ∧ u.d.tensor = 0 ∧ u.d.embed = false ∧ 0 < u.tiles ∧ u.okGrp = true ∧
      blockMasked s u.d.mask (u.block 0).1 (u.block 0).2 = false ∧
      verOk (vector (updDesc.take 8 ++ [0, 4] ++ updDesc.drop 10)) 1024 = false ∧
      (veSlot.updRun (vector (updDesc.take 8 ++ [0, 4] ++ updDesc.drop 10))).d.tensor = 1024 ∧ s.ras.updFrom = none ∧
      (veSlot.updRun badRows).d.tensor = 0 ∧ (veSlot.updRun badRows).d.embed = true ∧ rowList badRows (veSlot.updRun badRows) = none ∧
      badRows.psc.accepted = [veSlot] ∧ veSlot.veKind badRows = 6 ∧ (findOp retrying veSlot.op).isSome = true ∧
      retrying.ras.updFrom = some (veSlot.op, 0) ∧ veSlot.veKind retrying = 6 ∧ (veSlot.updRun retrying).d.embed = false := by
  decide +kernel
theorem test_update : after (.veUpdate 0 none) (vector (updDesc.take 8 ++ [0, 4] ++ updDesc.drop 10)) (fun t =>
    t.psc.accepted == [] && t.staging.bytes == [] && t.vers == []) = true := by decide +kernel
/-! Staging, the rope and the memory port. -/

/-- A passage whose descriptor 0 holds bytes, with a slot of its unit. -/
def described (desc : List Byte) (l : List Slot) : State :=
  let s := world arrayImage [entryOf 1 1 0 0] [(0x6000, desc ++ List.replicate (64 - desc.length) 0)]
  { s with psc := { s.psc with accepted := l } }
def someJob (kind : JobKind) (writes : Bool) : Job :=
  { id := 4, kind := kind, reads := !writes, writes := writes, src := 0x100, dst := 0x100, slab := 0, part := 0, off := 0, len := 64,
    rdIssued := 0, rdDone := 0, wrIssued := 0, wrDone := 0, buf := [], failed := false, spec := false }
def opOf (kind : OpKind) : Op := { id := 7, passage := 0, slot := 0, kind := kind, writes := [] }
/-- Channels 0 and 1 in service, operation 7 at work, transfers and requests under way. -/
def transferring (kind : OpKind) (jobs : List Job) (reqs : List BmpReq) : State :=
  let s := described [] []
  { s with
    psc := { s.psc with ops := [opOf kind] }, bmp := { s.bmp with chans := serving.bmp.chans, jobs := jobs, reqs := reqs } }
def allocating (alloc : Tab Alloc) (n : Nat) : State :=
  let s := described [] []
  { s with staging := { s.staging with alloc := alloc, waits := [{ slab := 0, part := 0, slots := List.range n, passage := 2, spec := false }] } }
theorem witness_MovesAndAllocation :
    (∀ k ∈ [1, 2, 3], (described [BitVec.ofNat 8 k] [slotOf 72 72 (2 ^ 60)]).psc.accepted = [slotOf 72 72 (2 ^ 60)] ∧
      ((slotOf 72 72 (2 ^ 60)).move (described [BitVec.ofNat 8 k] [])).kind = k) ∧ fld (slotOf 72 72 (2 ^ 60)).word.toNat 63 60 = 1 ∧
      findOp (transferring (.move 0 0) [] []) 7 = some (opOf (.move 0 0)) ∧
      (transferring (.move 0 0) [someJob (.move 7) false] []).bmp.jobs = [someJob (.move 7) false] ∧
      takeFirst (fun (w : AllocReq) => w.slab == 0 && w.part == 0) (allocating [] 2).staging.waits =
        some ({ slab := 0, part := 0, slots := [0, 1], passage := 2, spec := false }, []) ∧
      allocPlan (allocating [] 2) 0 0 2 false = some (2, 0) ∧ allocPlan (allocating [] 9) 0 0 9 false = none ∧
      (allocating [] 9).psc.window = [] ∧ (z8 0xA).staging.waits = [] := by decide +kernel
/-- Eight reserved slots, and four that may be lent. -/
def lending (n : Nat) : State :=
  let s := allocating [] n
  { s with img := { s.img with live := some (imageOf [(4, 0, [8, 0, 4, 0] ++ List.replicate 60 0 ++ [1, 0, 0, 0, 8, 0, 4, 0, 4, 0])]) } }
/-- The same with five of the reserved slots held. -/
def lendingTwo : State :=
  let s := lending 0
  { s with staging := { s.staging with
    alloc := (List.range 5).map (fun i => (allocKey 0 0 i, { loan := false, holders := [1], fixed := false, spec := false })),
    waits := [{ slab := 0, part := 0, slots := [5, 6, 7, 8], passage := 2, spec := false }] } }
theorem witness_MovesAndAllocation_loans :
    allocPlan (lending 10) 0 0 10 false = none ∧ allocPlan (lendingTwo) 0 0 4 false = some (3, 1) ∧
      (takeFirst (fun (w : AllocReq) => w.slab == 0 && w.part == 0) lendingTwo.staging.waits).map (fun w => (w.1.slots, w.2.length)) = some ([5, 6, 7, 8], 0) ∧
      [5, 6, 7, 8].Nodup ∧ (∀ x ∈ [5, 6, 7, 8], held lendingTwo 0 0 x = false) ∧ (partOf lendingTwo 0 0).slots - heldIn lendingTwo 0 0 false = 3 := by
  decide +kernel
theorem test_move : after (.moveHostToStaging 0) (described [1] [slotOf 72 72 (2 ^ 60)]) (fun t => t.bmp.jobs.map (·.kind) == [.move 1]) = true ∧
    after (.stagingAllocate 0 0) (allocating [] 2) (fun t => held t 0 0 0 && held t 0 0 1 && t.staging.waits == []) = true := by decide +kernel
def someTile (left : Nat) : RopeTile := { owner := .move 7, left := left, dpart := 0, dslot := 2, bytes := [some 9, none], last := true }
/-- Tiles in the hop of slab 7, whose receiver is slab 0, and in the hop of slab 0. -/
def roping (mine next : List RopeTile) : State :=
  let s := transferring (.send 7 1) [] []
  { s with rope := { s.rope with hops := [(0, next), (7, mine)] } }
/-- The tile's receiver waits for an allocation of a passage, or holds the tile's slot. -/
def waitingFor (p : Nat) : State :=
  let s := roping [someTile 1] []
  { s with staging := { s.staging with waits := [{ slab := 0, part := 0, slots := [2], passage := p, spec := false }] } }
def slotHeld : State :=
  let s := roping [someTile 1] []
  { s with staging := { s.staging with alloc := [(allocKey 0 0 2, { loan := false, holders := [0], fixed := false, spec := false })] } }
theorem witness_RopeTiles :
    (described [1, 1] [slotOf 80 80 (2 ^ 60)]).psc.accepted = [slotOf 80 80 (2 ^ 60)] ∧ (slotOf 80 80 0).index = 80 + (0 : Fin 8).val ∧
      hopTiles (roping [someTile 2] []) 7 = [someTile 2] ∧ findOp (roping [] []) 7 = some (opOf (.send 7 1)) ∧
      mayPass (roping [] (List.replicate 4 (someTile 1))) 0 = false ∧ mayPass (roping [] []) 0 = true ∧
      (allocate (roping [someTile 1] []) 0 0 [2] 0 false false).isSome = true ∧
      (allocate { roping [someTile 1] [] with img := (z8 1).img } 0 0 [2] 0 false false).isNone = true ∧ (roping [] []).psc.window = [] ∧
      hopTiles (roping [] []) 7 = [] ∧ (roping [someTile 1] []).rope.holding.getLsbD 7 = false ∧
      hopTiles (roping [someTile 1] []) 7 ≠ [] ∧ holdsAll (roping [someTile 1] []) 0 0 [2] 0 = false ∧ holdsAll slotHeld 0 0 [2] 0 = true ∧
      (roping [someTile 1] []).staging.waits = [] ∧ ((waitingFor 0).staging.waits.map (fun w => (w.slab, w.part, w.passage)) = [(0, 0, 0)]) ∧
      ((waitingFor 3).staging.waits.map (fun w => (w.slab, w.part, w.passage)) = [(0, 0, 3)]) ∧
      holdsAll (waitingFor 3) 0 0 [2] 0 = false ∧ (someTile 1).left ≤ 1 ∧ 1 < (someTile 2).left := by decide +kernel
theorem test_rope : after (.ropeTileArrive 7) (roping [someTile 1] []) (fun t =>
    stByte t (stKey 0 0 131072) == 9 && hopTiles t 7 == [] && t.psc.ops == []) = true := by decide +kernel
def someReq (write late : Bool) (wleft : Nat) : BmpReq :=
  { ch := 0, tag := 3, job := 4, write := write, addr := 0x100, start := 0x100, beats := 1, at_ := 0, len := 64, attempts := 0, wleft := wleft, late := late,
    pool := if late then none else some .block, since := 0 }
def wanted : Want := { job := someJob (.move 7) false, write := false, at_ := 0, len := 64, attempts := 0, again := false, since := 0 }
/-- The transfer's bytes lie across the edge of an error-feedback window. -/
def straddling : State := setLive (setLive (transferring (.move 0 0) [someJob (.move 7) false] []) 0x210020 0xE0) 0x210040 0x40
theorem witness_MemoryRequests :
    let s := transferring (.move 0 0) [someJob (.move 7) false] []
    (∀ x ∈ wants s, straddles s x = false) ∧ oldest ((wants s).filter (Want.fits s (0 : Fin 64).val)) = some wanted ∧
      wanted.place s = some 0x100 ∧ wanted.again = false ∧ wanted.write = false ∧ (getChan s 0).inService = true ∧ 0 < (getChan s 0).req ∧
      (getChan s 2).inService = false ∧ (∀ x ∈ wants s, Want.fits s 1 x = false) ∧
      (transferring (.move 0 0) [] [someReq true false 1]).bmp.reqs.find? (fun x => x.ch == (0 : Fin 64).val && decide (0 < x.wleft)) =
        some (someReq true false 1) ∧ s.boot.interval = false ∧ s.boot.stage ≠ 0xF ∧
      (wants straddling).find? (straddles straddling) = some wanted ∧ wants (noteStraddle straddling wanted) = [] := by decide +kernel
/-- The first write of a transfer, and a read that is to be presented again. -/
def writing : State := transferring (.move 0 0) [someJob (.move 7) true] []
def redoing : State :=
  let s := transferring (.move 0 0) [{ someJob (.move 7) false with rdIssued := 64 }] []
  { s with bmp := { s.bmp with redo := [someReq false false 0] } }
theorem witness_MemoryRequests_writes :
    (let w : Want := { job := someJob (.move 7) true, write := true, at_ := 0, len := 64, attempts := 0, again := false, since := 0 }
     oldest ((wants writing).filter (Want.fits writing 0)) = some w ∧ w.place writing = some 0x100 ∧ (∀ x ∈ wants writing, straddles writing x = false)) ∧
      (let w : Want := { job := { someJob (.move 7) false with rdIssued := 64 }, write := false, at_ := 0, len := 64, attempts := 0, again := true, since := 0,
                         start := some 0x100 }
       oldest ((wants redoing).filter (Want.fits redoing 0)) = some w ∧ w.place redoing = some 0x100 ∧
        (∀ x ∈ wants redoing, straddles redoing x = false)) := by decide +kernel
theorem witness_MemoryRequests_tags (s : State) (h : s ∈ [transferring (.move 0 0) [someJob (.move 7) false] [], writing, redoing]) : freeTags s 0 ≠ [] := by
  intro he
  have : (0 : Nat) ∈ freeTags s 0 := by
    rw [freeTags, List.mem_filter]
    revert s
    simp only [List.forall_mem_cons, List.mem_range]
    exact ⟨fun _ => by decide, fun _ => by decide, fun _ => by decide, by simp⟩
  rw [he] at this
  simp at this
theorem test_credit : after (.bmpWdataCredit 0) (transferring (.move 0 0) [] [someReq true false 1]) (fun t =>
    t.bmp.reqs == [someReq true false 0] && (getChan t 0).wdata == 4) = true := by decide +kernel
theorem witness_MemoryResponses :
    let s := transferring (.move 0 0) [someJob (.move 7) false] [someReq false false 0]
    let u := transferring (.move 0 0) [someJob (.move 7) true] [someReq true false 0]
    let v := transferring (.move 0 0) [someJob .image false] [someReq false true 0]
    takeFirst (fun (r : BmpReq) => r.ch == (0 : Fin 64).val && r.tag == (3 : BitVec 10).toNat) s.bmp.reqs = some (someReq false false 0, []) ∧
      (v.bmp.reqs.map (·.late) = [true]) ∧ s.bmp.jobs.find? (fun j => j.id == 4) = some (someJob (.move 7) false) ∧
      (someReq false false 0).start = 0x100 ∧ (someReq false false 0).kept = [] ∧ 0x100 + 64 ≤ 0x100 + 64 * 1 ∧ 0x100 = 0x100 / 64 * 64 ∧ (List.replicate 64 (0 : Byte)).length = 64 * 1 ∧
      u.bmp.jobs.find? (fun j => j.id == 4) = some (someJob (.move 7) true) ∧
      leakyCount s 0 0 + 1 < faultLimit s 0 ∧ v.bmp.jobs.find? (fun j => j.id == 4) = some (someJob .image false) ∧
      s.bmp.reqs.find? (fun r => r.ch == 0 && r.tag == 3 && !r.late) = some (someReq false false 0) ∧
      (∀ r ∈ s.bmp.reqs, r.ch ≠ (1 : Fin 64).val ∨ r.tag ≠ (3 : BitVec 10).toNat) := by decide +kernel
/-- A request of a move or a fetch before the commit, or of an owned tile, whose next failure is final. -/
def lastTry (k : JobKind) : State := transferring (.move 0 0) [someJob k false] [{ someReq false false 0 with attempts := 3 }]
theorem witness_MemoryResponses_kept : Mem.wf (someReq false false 0).kept := by simp [someReq, Tab.sorted]
theorem witness_MemoryResponses_failures :
    (∀ k ∈ [JobKind.move 7, JobKind.fetch 0 0, JobKind.put none],
      (lastTry k).bmp.jobs.find? (fun j => j.id == 4) = some (someJob k false) ∧ (lastTry k).psc.committed = false ∧
      takeFirst (fun (r : BmpReq) => r.ch == 0 && r.tag == 3) (lastTry k).bmp.reqs = some ({ someReq false false 0 with attempts := 3 }, []) ∧
      (lastTry k).bmp.reqs.find? (fun r => r.ch == 0 && r.tag == 3 && !r.late) = some { someReq false false 0 with attempts := 3 } ∧
      leakyCount (lastTry k) 0 0 + 1 < faultLimit (lastTry k) 0 ∧ (lastTry k).psc.stepOn = true ∧ (lastTry k).psc.abortDue = false) ∧
      (z8 0xA).psc.stepOn = false ∧ portServes (lastTry (.move 7)) = false ∧ opsSettled (lastTry (.fetch 0 0)) = false ∧
      opsSettled { lastTry (.fetch 0 0) with psc := { (lastTry (.fetch 0 0)).psc with ops := [] } } = true ∧
      { (lastTry (.move 7)).psc with abortDue := true }.abortDue = true ∧ 2 ≤ (2 : BitVec 3).toNat := by decide +kernel
theorem test_address_error : after (.bmpResponse 0 3 3 []) (lastTry (.move 7)) (fun t =>
    t.psc.abortDue && t.psc.stopIssue && (getArray t 7).stopped && t.bmp.jobs == [] && (waitingRecords t 4).map (·.code) == [BitVec.ofNat 16 Ev.bmpAddressError]) = true := by
  decide +kernel
theorem test_response : after (.bmpResponse 0 3 0 (List.replicate 64 5)) (transferring (.move 0 0) [someJob (.move 7) false] [someReq false false 0])
    (fun t => stByte t 63 == 5 && t.bmp.jobs == [] && t.bmp.reqs == []) = true ∧
    after (.bmpTimeout 0 3) (transferring (.move 0 0) [someJob (.move 7) false] [someReq false false 0]) (fun t =>
      t.bmp.reqs.map (·.late) == [true] && t.bmp.redo.map (·.attempts) == [1]) = true := by decide +kernel
theorem witness_ChannelRetirement : (getChan serving 0).inService = true ∧ 1 < (channels serving).length ∧ (getChan serving 2).inService = false := by
  decide +kernel
theorem test_channel_down : after (.bmpChannelDown 0) serving (fun t => channels t == [1] && t.bmp.reclaimed == 8) = true := by decide +kernel
def laned (l : BitVec 32) : State := let s := z8 0xA; { s with rlp := { s.rlp with lanes := l, chans := [(0, { getRlp s 0 with tx := 3, rx := 2 })] } }
theorem witness_LaneRetirement :
    (laned 3).rlp.lanes.getLsbD (0 : Fin 32).val = true ∧ (laned 3).rlp.lanes.getLsbD 1 = true ∧
      (∀ l < 32, l ≠ 0 → (laned 1).rlp.lanes.getLsbD l = false) ∧ (getRlp (laned 1) 0).retired = false ∧
      (laned 2).rlp.lanes.getLsbD (0 : Fin 32).val = false ∧ (waitingRecords (laned 3) 5).length < 8 := by decide +kernel
theorem test_lane_down : after (.laneDown 0) (laned 1) (fun t => (getRlp t 0).retired && t.rlp.reclaimed == 5 && t.rlp.lanes == 0) = true ∧
    after (.laneDown 0) (laned 3) (fun t => !(getRlp t 0).retired && t.rlp.lanes == 2) = true := by decide +kernel
/-! The collective port. -/

/-- A group of a size with this member's index, sparse or dense, of one tensor of one tile at `0x40000`. -/
def groupOf8 (sparse : Bool) (size self : Nat) : List (Nat × List Byte) :=
  [(0x30000, [1, 0, if sparse then 1 else 2, 1] ++ leBytes 4 size ++ leBytes 2 self ++ [0, 0, 1, 0, 0, 0] ++ leBytes 8 0x31000 ++ leBytes 8 0x32000 ++
      leBytes 4 8 ++ leBytes 4 77 ++ List.replicate 24 0),
   (0x31000, [9, 0, 2, 0, 8, 0, 2, 0]),
   (0x32000, [0, 0, 0xFF, 0xFF, 0xFF, 0xFF, 0, 0, 1, 0, 0, 0, 1, 0, 0, 0, 0, 0, 0, 0, 0, 0, 0, 0] ++ leBytes 8 0x40000)]
/-- A partition of 24 slots for owner windows, and a lane group of slab 0. -/
def ownerImage : List (Nat × Nat × List Byte) := [(4, 0, List.replicate 64 0 ++ [3, 0, 0, 0, 24, 0, 0, 0, 0, 0]), (6, 0, [1, 0, 0xFF])]
/-- A step in progress on a rank of 8, with the port in service and reduction group 0 valid. -/
def ranked (rank : Nat) (sparse : Bool) (size self : Nat) : State :=
  let s := world ownerImage [] (groupOf8 sparse size self)
  { s with
    psc := { s.psc with
      sample := { s.psc.sample with regs := s.psc.sample.regs ++ [(0x210000, BitVec.ofNat 32 rank), (0x210004, 8), (0x210018, 0x30000)] } },
    boot := { s.boot with rlpVer := 2 },
    rlp := { s.rlp with groups := [0], chans := [(0, { retired := false, tx := 4, txOut := 0, rx := 4, queue := [], beats := 0, dest := 0, resp := none })] } }
/-- A slot of channel 0 with a descriptor. -/
def collSlot (rank op : Nat) (desc : List Byte) : State :=
  let s := ranked rank true 1 0
  let m := bytesAt 0x1000 (entryOf 1 1 0 0) ++ bytesAt 0x6000 (desc ++ List.replicate (64 - desc.length) 0)
  { s with
    hostMem := m,
    psc := { s.psc with accepted := [slotOf 96 96 (op * 2 ^ 60)], sample := { mem := m ++ s.psc.sample.mem, phase := false, regs := s.psc.sample.regs } } }
def frameOf (typ group src dst pseq level cfg : Nat) (payload : List Byte) : Frame :=
  { typ := typ, fver := 2, group := group, attempt := 0, src := src, dst := dst, step := 0, pseq := pseq, tile := 0, tensor := 0,
    fmt := if group = 0 then 9 else 0, level := level, cfg := cfg, payload := payload }
def queued (tx : Nat) (retired : Bool) : State :=
  let s := ranked 0 true 1 0
  { s with rlp := { s.rlp with chans :=
    [(0, { retired := retired, tx := tx, txOut := 0, rx := 4, queue := [(1, frameOf 5 0xFF 0 0 0 0 0 [])], beats := 0, dest := 0,
           resp := none })] } }
def someFragment : Fragment := { first := 0, streams := [StreamStat.zero], lockMin := 0, lockMax := 0 }
/-- The last fragment of a commit outcome is in, and the only passage has ended; a passage that has not ended, on a committing rank. -/
def committing : State :=
  let s := standing (world [] [entryOf 1 1 0 0] []) [(0, .ended)] none
  { s with rlp := { s.rlp with range := some (0, 1), outFrag := [(0, someFragment)] } }
theorem witness_PassageEnds_commit : hasOps committing 0 = false ∧ savedOps committing 0 = [] ∧ (getPassage committing 0).status = .ended ∧
    (getPassage committing 0).spec = false ∧ committing.psc.committed = false ∧ committing.psc.stepOn = true ∧ committing.psc.abortDue = false ∧
    committing.rlp.range = some (0, 1) ∧ fragCount 1 = 1 ∧ (List.lookup 0 committing.rlp.outFrag).isSome = true ∧
    passageDone committing 0 = false ∧ (pentry committing 0).valid = true ∧ ptCount committing = 1 := by decide +kernel
theorem test_commit : after (.passageComplete 0)
    { committing with rlp := { committing.rlp with range := some (0, 0), outFrag := [] } } (fun t => t.psc.step == 1 && (getMbx t 0).ready) = true := by decide +kernel
/-- STATS of the only rank, in an UPD passage. -/
def soleRank : State :=
  let s := collSlot 0 2 [4, 0, 0, 0, 3]
  { s with psc := { s.psc with sample := { s.psc.sample with regs := (0x210004, 1) :: s.psc.sample.regs } } }
/-- A STATS slot that comes after another one. -/
def statsAgain : State := let s := collSlot 0 2 [4, 0, 0, 0, 3]; { s with rlp := { s.rlp with ownFrag := [(0, someFragment)] } }
theorem witness_CollectiveSlots :
    (∀ k ∈ [1, 2, 3], ((slotOf 96 96 (2 ^ 60)).coll (collSlot 0 1 [BitVec.ofNat 8 k])).kind = k) ∧
      (collSlot 0 1 [1]).psc.accepted = [slotOf 96 96 (2 ^ 60)] ∧ (collSlot 0 1 [1]).rlp.backlog = [] ∧
      findOp (collSlot 0 1 [1]) 1 = none ∧ fld (slotOf 96 96 (2 * 2 ^ 60)).word.toNat 63 60 = 2 ∧ isRoot (collSlot 1 2 [4]) = false ∧
      (collSlot 1 2 [4]).rlp.ownFrag = [] ∧ (collSlot 1 2 [4]).rlp.fbuf = [] ∧
      fieldAt (descBytes (collSlot 1 2 [4, 0, 0, 0, 3]) 0 0) 4 4 % 2 ^ 13 = 3 ∧
      (getRlp (queued 0 false) 0).queue = [(1, frameOf 5 0xFF 0 0 0 0 0 [])] ∧ rlpServes (queued 0 false) 0 = true ∧
      (getRlp (queued 0 false) 0).beats + (getRlp (queued 0 false) 0).tx < (52 + 0 + 511) / 512 ∧
      (52 + 0 + 511) / 512 ≤ (getRlp (queued 1 false) 0).beats + (getRlp (queued 1 false) 0).tx ∧
      (getRlp (ranked 0 true 1 0) 0).queue = [] ∧ (getRlp (queued 0 true) 0).retired = true ∧
      (getRlp (queued 0 false) 0).retired = false ∧ (queued 0 false).boot.stage ≠ 0 ∧ isRoot (collSlot 0 2 [4, 0, 0, 0, 3]) = true ∧
      (collSlot 0 2 [4, 0, 0, 0, 3]).rlp.ownFrag = [] ∧ findOp (collSlot 0 2 [4, 0, 0, 0, 3]) 1 = none ∧
      1 ∈ treeChildren (collSlot 0 2 [4, 0, 0, 0, 3]) ∧ (collSlot 0 2 [4, 0, 0, 0, 3]).rlp.fbuf = [] ∧
      List.lookup (1 * 4) (collSlot 0 2 [4, 0, 0, 0, 3]).rlp.childFrag = none ∧ statsAgain.rlp.ownFrag ≠ [] ∧
      fld (slotOf 96 96 (2 * 2 ^ 60)).word.toNat 63 60 = 2 ∧ (getRlp (queued 1 false) 0).beats ≤ (52 + 0 + 511) / 512 ∧
      soleRank.rlp.ownFrag = [] ∧ isRoot soleRank = true ∧ treeChildren soleRank = [] ∧ findOp soleRank 1 = none ∧ soleRank.psc.stepOn = true ∧
      soleRank.psc.committed = false ∧ soleRank.psc.abortDue = false ∧ soleRank.rlp.outFrag = [] ∧ allDone soleRank (· != 4) none = true := by
  decide +kernel
theorem test_transmit : after (.frameTransmit 0) (queued 1 false) (fun t => (getRlp t 0).queue == [] && (getRlp t 0).tx == 0) = true := by
  decide +kernel
def reporting (rank : Nat) : State :=
  let s := ranked rank true 1 0
  { s with
    psc := { s.psc with ops := [opOf (.stats 0 1)] },
    rlp := { s.rlp with
      ownFrag := [(0, someFragment)],
      childFrag := [(12, someFragment),
                    (16, someFragment)] } }
def noticing (rank : Nat) (sent : Bool) : State :=
  let s := ranked rank true 2 0; { s with rlp := { s.rlp with noticeDue := true, notice := sent } }
def lostOn : State := let s := ranked 1 true 1 0; { s with ras := { s.ras with lostWait := true } }
/-- A frame as it arrives passes the CRC check and spells the frame. -/
def arrives (f : Frame) : Bool := frameCrcOk f.bytes && Frame.ofBytes f.bytes == f
def sparseFrame (pseq cfg : Nat) : Frame := frameOf 1 0 0 0 pseq 0 cfg [0, 0, 0, 0]
def noticeFrame (src dst : Nat) : Frame := frameOf 5 0xFF src dst 0 0 0 []
def outcomeFrame : Frame := frameOf 6 0xFF 0 1 0 0 0 [0, 0, 0, 0]
def statsFrame (src dst : Nat) : Frame := frameOf 4 0xFF src dst 0 0 0 (List.replicate 372 0)
/-- The outcome is commit, with the only fragment of one stream. -/
def commitFrame : Frame := frameOf 6 0xFF 0 1 0 0 0 ([1, 0, 0, 0] ++ List.replicate 372 0)
/-- The root has its statistics, and those of its second child. -/
def rootReporting (other : Bool) : State :=
  let s := ranked 0 true 1 0
  { s with rlp := { s.rlp with
    range := some (0, 1), ownFrag := [(0, someFragment)], childFrag := if other then [(8, someFragment)] else [] } }
def outcomeRank : State := let s := ranked 1 true 1 0; { s with rlp := { s.rlp with range := some (0, 1) } }
/-- A passage has not completed. -/
def undone : State :=
  let s := ranked 1 true 1 0
  { s with psc := { s.psc with
    sample := { mem := bytesAt 0x1000 (entryOf 1 1 0 0) ++ s.psc.sample.mem, phase := false,
                regs := (0x040028, 1) :: s.psc.sample.regs } } }
/-- The tile of the group's tensor is masked. -/
def masking : State :=
  let s := ranked 0 true 1 0
  let m := bytesAt 0x32014 [1, 0] ++ bytesAt 0x70020 ([1, 0, 2, 0, 1, 0, 0, 0, 1, 0, 0, 0] ++ List.replicate 12 0 ++ leBytes 8 0x60000) ++
    bytesAt 0x60000 [1] ++ s.psc.sample.mem
  { s with hostMem := m, psc := { s.psc with
    sample := { mem := m, phase := false,
                regs := [(0x040030, 0x70000), (0x040038, 2)] ++ s.psc.sample.regs } } }
theorem masking_masks (h : Config.hostHas 0x60000 = true) : maskedFrame masking (sparseFrame 0 77) = true := by
  have hm : maskOk masking 1 = true := by
    have ha : fieldAt (maskBytes masking 1) 0x18 8 = 0x60000 := by decide +kernel
    have hr : bitAt (fieldAt (maskBytes masking 1) 2 1) 0 = false := by decide +kernel
    unfold maskOk mapInHost
    simp only [ha, hr, h, Bool.and_eq_true, Bool.or_eq_true, Bool.not_false, Bool.true_or, and_true]
    decide +kernel
  have hx : (gtensor masking (rgroup masking 0) 0).mask = 1 := by decide +kernel
  have hb : blockMasked masking 1 ((sparseFrame 0 77).tile / (gtensor masking (rgroup masking 0) 0).bcols)
      ((sparseFrame 0 77).tile % (gtensor masking (rgroup masking 0) 0).bcols) = true := by
    unfold blockMasked
    rw [hm]
    decide +kernel
  have he : maskedFrame masking (sparseFrame 0 77) = ((sparseFrame 0 77).group != 0xFF &&
    blockMasked masking (gtensor masking (rgroup masking 0) 0).mask ((sparseFrame 0 77).tile / (gtensor masking (rgroup masking 0) 0).bcols)
      ((sparseFrame 0 77).tile % (gtensor masking (rgroup masking 0) 0).bcols)) := rfl
  rw [he, hx, hb]
  rfl
/-- A frame whose header is as long as it says passes the check of its CRC. -/
theorem bytes_crcOk (f : Frame) (hh : (f.header f.step).length = 48) (hn : fieldAt f.bytes 0x1C 4 = f.payload.length) :
    frameCrcOk f.bytes = true := by
  have hb : (f.header f.step ++ f.payload).length = 48 + f.payload.length := by rw [List.length_append, hh]
  have hc := sealed_ok (f.header f.step ++ f.payload)
  rw [hb] at hc
  rw [frameCrcOk, hn]
  show (decide (48 + f.payload.length + 4 ≤ f.bytes.length) && fieldAt f.bytes (48 + f.payload.length) 4 == _) = true
  rw [Bool.and_eq_true, beq_iff_eq]
  refine ⟨decide_eq_true ?_, hc⟩
  simp only [Frame.bytes, List.length_append, hh, length_leBytes]
  omega
theorem long_arrives : ∀ f ∈ [statsFrame 1 0, statsFrame 3 1, commitFrame], frameCrcOk f.bytes = true ∧ Frame.ofBytes f.bytes = f := by
  intro f hf
  simp only [List.mem_cons, List.not_mem_nil, or_false] at hf
  rcases hf with rfl | rfl | rfl
  · exact ⟨bytes_crcOk _ (by decide +kernel) (by decide +kernel), by decide +kernel⟩
  · exact ⟨bytes_crcOk _ (by decide +kernel) (by decide +kernel), by decide +kernel⟩
  · exact ⟨bytes_crcOk _ (by decide +kernel) (by decide +kernel), by decide +kernel⟩
def expecting (n : Nat) : State := let s := ranked 0 true 1 0; { s with rlp := { s.rlp with expect := [(0, n)] } }
def buffering : State := let s := ranked 0 true 1 0; { s with rlp := { s.rlp with fbuf := [sparseFrame 0 77] } }
def committedOn (rank : Nat) : State := let s := ranked rank true 1 0; { s with psc := { s.psc with committed := true } }
theorem witness_ReceivedFrames :
    (z8 0xA).boot.rlpVer = 0 ∧ (ranked 0 true 1 0).boot.rlpVer ≠ 0 ∧ rlpServes (ranked 0 true 1 0) (0 : Fin 2).val = true ∧
      leakyCount (ranked 0 true 1 0) 1 0 + 1 < faultLimit (ranked 0 true 1 0) 1 ∧
      (∀ f ∈ [sparseFrame 0 77, sparseFrame 1 77, sparseFrame 0 78, { sparseFrame 0 77 with attempt := 1 }, noticeFrame 1 0, noticeFrame 3 1,
        outcomeFrame], arrives f = true) ∧
      frameAgrees (ranked 0 true 1 0) (sparseFrame 0 78) = false ∧
      (∀ n ∈ [0, 1], frameAgrees (expecting n) (sparseFrame 0 77) = true ∧ frameAgrees (expecting n) (sparseFrame 1 77) = true) ∧
      Tab.get 0 (expecting 1).rlp.expect (seqKey 0 0) = 1 ∧ frameAgrees buffering (sparseFrame 0 77) = true ∧
      frameRoom buffering (sparseFrame 0 77) = false ∧ frameRoom (ranked 0 true 1 0) (sparseFrame 0 77) = true ∧
      maskedFrame (ranked 0 true 1 0) (sparseFrame 0 77) = false ∧ frameAgrees (ranked 0 true 1 0) (noticeFrame 1 0) = true ∧
      frameAgrees (ranked 1 true 1 0) (noticeFrame 3 1) = true ∧ isRoot (ranked 0 true 1 0) = true ∧ isRoot (ranked 1 true 1 0) = false ∧
      undecided (ranked 0 true 1 0) = true ∧ (ranked 1 true 1 0).rlp.notice = false ∧ frameAgrees (ranked 1 true 1 0) outcomeFrame = true ∧
      frameAgrees (committedOn 1) outcomeFrame = true ∧ (committedOn 1).psc.committed = true ∧ (ranked 1 true 1 0).psc.committed = false ∧
      (ranked 1 true 1 0).ras.lostWait = false ∧ fieldAt outcomeFrame.payload 0 1 = 0 ∧ (ranked 1 true 1 0).psc.abortDue = false ∧
      frameAgrees masking (sparseFrame 0 77) = true ∧ frameRoom masking (sparseFrame 0 77) = true ∧
      frameAgrees (ranked 0 true 1 0) (statsFrame 1 0) = true ∧
      frameRoom (ranked 0 true 1 0) (statsFrame 1 0) = true ∧ (ranked 0 true 1 0).rlp.ownFrag = [] ∧
      frameAgrees (reporting 1) (statsFrame 3 1) = true ∧ frameRoom (reporting 1) (statsFrame 3 1) = true ∧
      (reporting 1).rlp.ownFrag ≠ [] ∧ isRoot (reporting 1) = false ∧ frameAgrees undone commitFrame = true ∧
      fieldAt commitFrame.payload 0 1 ≠ 0 ∧ allDone undone (· != 4) none = false ∧ undone.psc.committed = false ∧
      lostOn.ras.lostWait = true ∧ frameAgrees lostOn outcomeFrame = true ∧ (noticing 1 true).rlp.notice = true ∧
      frameAgrees (noticing 1 true) (noticeFrame 3 1) = true ∧ (sparseFrame 0 77).typ ≠ 2 ∧
      { sparseFrame 0 77 with attempt := 1 }.attempt ≠ (ranked 0 true 1 0).psc.attempt.toNat := by decide +kernel
theorem witness_ReceivedFrames_commit :
    (∀ b ∈ [true, false], (rootReporting b).rlp.ownFrag ≠ [] ∧ isRoot (rootReporting b) = true ∧ (rootReporting b).psc.stepOn = true ∧
      (rootReporting b).psc.committed = false ∧ (rootReporting b).psc.abortDue = false ∧ (rootReporting b).rlp.outFrag = [] ∧
      frameAgrees (rootReporting b) (statsFrame 1 0) = true ∧ frameRoom (rootReporting b) (statsFrame 1 0) = true ∧
      maskedFrame (rootReporting b) (statsFrame 1 0) = false ∧
      (mergedFragment { rootReporting b with rlp := { (rootReporting b).rlp with
        childFrag := (rootReporting b).rlp.childFrag.put 4 (readFrag (rootReporting b) 0 (statsFrame 1 0).payload) } } 0).isSome = b) ∧
      fragCount 1 = 1 ∧ allDone (rootReporting true) (· != 4) none = true ∧ allDone outcomeRank (· != 4) none = true ∧
      outcomeRank.psc.stepOn = true ∧ outcomeRank.psc.committed = false ∧ outcomeRank.ras.lostWait = false ∧
      outcomeRank.psc.abortDue = false ∧ frameAgrees outcomeRank commitFrame = true ∧ commitFrame.tile % 4 = 0 ∧
      maskedFrame outcomeRank commitFrame = false ∧ frameRoom outcomeRank commitFrame = true := by decide +kernel
theorem test_receive : after (.receiveSparseList 0 false (sparseFrame 0 77).bytes) (ranked 0 true 1 0) (fun t =>
      t.rlp.fbuf == [sparseFrame 0 77] && t.rlp.expect == [(0, 1)]) = true ∧
    after (.receiveAbortNotice 0 false (noticeFrame 3 1).bytes) (ranked 1 true 1 0) (fun t => t.rlp.notice && (outgoing t 0).length == 1) = true := by
  decide +kernel
/-- A gather frame of one tile of FP8 zeros, too long to evaluate: its parts are read one by one. -/
def gatherHead : List Byte :=
  [3, 2] ++ List.replicate 24 0 ++ [2, 0, 0, 0, 1, 0, 77, 0, 0, 0] ++ List.replicate 12 0
def gatherBody : List Byte := gatherHead ++ List.replicate 65536 0
def gatherBytes : List Byte := gatherBody ++ leBytes 4 (crc32c gatherBody).toNat
def gatherFrame (p : List Byte) : Frame := { frameOf 3 0 0 0 0 0 77 p with fmt := 2 }
theorem fieldAt_left (l r : List Byte) (o n : Nat) (h : o + n ≤ l.length) : fieldAt (l ++ r) o n = fieldAt l o n := by
  rw [fieldAt, fieldAt, List.drop_append_of_le_length (by omega), List.take_append_of_le_length (by rw [List.length_drop]; omega)]
theorem gather_arrives :
    frameCrcOk gatherBytes = true ∧ Frame.ofBytes gatherBytes = gatherFrame (List.replicate 65536 0) := by
  have hh : gatherHead.length = 48 := by decide
  have hb : gatherBody.length = 65584 := by rw [gatherBody, List.length_append, List.length_replicate, hh]
  have f : ∀ o n, o + n ≤ 48 → fieldAt gatherBytes o n = fieldAt gatherHead o n := fun o n h => by
    rw [gatherBytes, fieldAt_left _ _ _ _ (by omega), gatherBody, fieldAt_left _ _ _ _ (by omega)]
  have hn : fieldAt gatherBytes 0x1C 4 = 65536 := by rw [f _ _ (by omega)]; decide
  have hc := sealed_ok gatherBody
  rw [hb] at hc
  have hp : slice gatherBytes 48 (48 + 65536) = List.replicate 65536 0 := by
    rw [slice, gatherBytes, gatherBody, List.append_assoc, ← hh, List.drop_left, Nat.add_sub_cancel_left,
      List.take_append_of_le_length (Nat.le_of_eq List.length_replicate.symm), List.take_of_length_le (Nat.le_of_eq List.length_replicate)]
  constructor
  · rw [frameCrcOk, hn]
    show (decide (48 + 65536 + 4 ≤ gatherBytes.length) && fieldAt gatherBytes (48 + 65536) 4 == (crc32c (gatherBytes.take (48 + 65536))).toNat) = true
    rw [Bool.and_eq_true, beq_iff_eq]
    refine ⟨?_, hc⟩
    have hl : gatherBytes.length = 65588 := by rw [gatherBytes, List.length_append, hb, length_leBytes]
    exact decide_eq_true (Nat.le_of_eq hl.symm)
  · rw [Frame.ofBytes, hn, hp]
    repeat rw [f _ _ (by omega)]
    rfl
/-- The versions of tensor 0 are described at `0x50000`: a stash, and zeros. -/
def gatheringOf (stash : Byte) : State :=
  let s := ranked 0 true 1 0
  { s with psc := { s.psc with
    sample := { mem := s.psc.sample.mem ++ bytesAt 0x50000 (stash :: List.replicate 255 0), phase := false, regs := s.psc.sample.regs ++ [(0x040040, 0x50000)] } } }
def gathering : State := gatheringOf 0
theorem gather_agrees : frameAgrees gathering (gatherFrame (List.replicate 65536 0)) = true ∧
    frameAgrees (gatheringOf 8) (gatherFrame (List.replicate 65536 0)) = true := by
  show groupAgrees gathering (gatherFrame (List.replicate 65536 0)) = true ∧ groupAgrees (gatheringOf 8) (gatherFrame (List.replicate 65536 0)) = true
  have h : (gatherFrame (List.replicate 65536 0)).payload.length = 65536 := List.length_replicate
  have ht : (gatherFrame (List.replicate 65536 0)).typ = 3 := rfl
  simp only [groupAgrees, h, ht, if_neg (show ¬ (3 : Nat) = 1 by omega), if_neg (show ¬ (3 : Nat) = 2 by omega), if_pos, Bool.and_eq_true]
  refine ⟨⟨⟨⟨⟨⟨⟨⟨?_, ?_⟩, ?_⟩, ?_⟩, ?_⟩, ?_⟩, ?_⟩, ⟨⟨?_, ?_⟩, ?_⟩, ?_⟩, ⟨⟨⟨⟨⟨⟨⟨?_, ?_⟩, ?_⟩, ?_⟩, ?_⟩, ?_⟩, ?_⟩, ⟨⟨?_, ?_⟩, ?_⟩, ?_⟩⟩ <;> decide +kernel
theorem witness_ReceivedFrames_gather :
    rlpServes gathering 0 = true ∧ gathering.boot.rlpVer ≠ 0 ∧ frameCrcOk gatherBytes = true ∧
      frameAgrees gathering (Frame.ofBytes gatherBytes) = true ∧ (Frame.ofBytes gatherBytes).pseq = Tab.get 0 gathering.rlp.expect 0 ∧
      frameRoom gathering (Frame.ofBytes gatherBytes) = true ∧ maskedFrame gathering (Frame.ofBytes gatherBytes) = false ∧
      (Frame.ofBytes gatherBytes).typ = 3 ∧ verOk gathering 0 = true ∧ (gtensor gathering (rgroup gathering 0) 0).tensor = 0 ∧
      fmtBits (Frame.ofBytes gatherBytes).fmt = 8 ∧ verOk (gatheringOf 8) 0 = false ∧
      frameAgrees (gatheringOf 8) (Frame.ofBytes gatherBytes) = true ∧ (gatheringOf 8).psc.committed = false := by
  have hv : ∀ b, verBytes (gatheringOf b) 0 = b :: List.replicate 255 0 := by
    intro b
    have h : smpPair (gatheringOf b) 0x040040 + 256 * 0 = 0x50000 := rfl
    rw [verBytes, h]
    exact hostBytesOf_bytesAt 0x50000 256 (b :: List.replicate 255 0) (ranked 0 true 1 0).psc.sample.mem
      ((List.length_cons ..).trans (congrArg (· + 1) List.length_replicate)) (by decide +kernel)
  have h0 : verOk gathering 0 = true := by rw [gathering, verOk, hv]; decide +kernel
  have h8 : verOk (gatheringOf 8) 0 = false := by rw [verOk, hv]; decide +kernel
  rw [gather_arrives.2]
  refine ⟨by decide, by decide, gather_arrives.1, gather_agrees.1, by decide, rfl, by decide +kernel, rfl, h0, by decide +kernel,
    by decide, h8, gather_agrees.2, by decide⟩
def windowed (count size : Nat) : State :=
  let s := ranked 0 true size 0
  { s with rlp := { s.rlp with
    fbuf := [frameOf 1 0 0 0 0 0 77 [1, 0, 0, 0, 0, 0, 0, 0, 0x80, 0x3F]],
    windows := [{ group := 0, u := 0, slab := 0, part := 0, slots := List.range 24, count := count, elems := [] }] } }
/-- A dense tile's node on member `self` of a group of a size, with its child's partial or without. -/
def densely (size self : Nat) (child : Bool) : State :=
  let s := ranked 0 false size self
  { s with rlp := { s.rlp with
    dense := [{ group := 0, u := 0, level := 0, vals := [0x3F800000] }],
    fbuf := if child then [{ frameOf 2 0 (self + 1) self 0 0 77 [0, 0, 0x80, 0x3F] with fmt := 9 }] else [] } }
/-- Every lane group of slab 0 works on a RUN. -/
def occupied (s : State) : State := setVe s 0 { getVe s 0 with groups := 1 }
theorem witness_OwnedTiles :
    let s := ranked 0 true 1 0
    nextOwned s = some (0, 0) ∧ tileSlab s (rgroup s 0) 0 = (0 : Fin 8).val ∧ (partOf s 0 0).kind = 3 ∧ (freeSlots s 0 0).length = 24 ∧
      s.staging.waits = [] ∧ (allocate s 0 0 (freeSlots s 0 0) ownerHolder false true).isSome = true ∧ nextOwned (z8 0xA) = none ∧
      (windowOf (windowed 0 1) 0 (0 + 0)).map (·.count) = some 0 ∧
      ((windowed 0 1).rlp.fbuf.find? (fun f => f.typ == 1 && f.group == (0 : Fin 64).val && f.src == 0)).map listOf = some [(0, 0x3F800000)] ∧
      (gtensor (windowed 0 1) (rgroup (windowed 0 1) 0) 0).base = 0 ∧ (gtensor (windowed 0 1) (rgroup (windowed 0 1) 0) 0).rows = 1 ∧
      (gtensor (windowed 0 1) (rgroup (windowed 0 1) 0) 0).cols = 1 ∧ rowMasked (windowed 0 1) 0 0 = false ∧
      (tileOf (windowed 1 1) (rgroup (windowed 1 1) 0) 0).map (fun x => (x.1, x.2.2)) = some (0, 0) ∧ (rgroup (windowed 1 1) 0).size = 1 ∧
      ownerGroup (windowed 0 1) 0 = true ∧ ownerGroup (windowed 1 1) 0 = true ∧ ownerGroup (occupied (windowed 0 1)) 0 = false ∧
      ownerGroup (occupied (windowed 1 1)) 0 = false ∧ ((windowed 0 1).rlp.fbuf.map (fun f => ((listOf f).map (·.1)))) = [[0]] ∧
      (windowed 0 1).rlp.backlog = [] := by
  decide +kernel
theorem witness_OwnedTiles_dense :
    (∀ self ∈ [0, 2], (tileOf (densely 4 self true) (rgroup (densely 4 self true) 0) 0).map (·.1) = some 0 ∧
      ((densely 4 self true).rlp.dense.map (·.level)) = [0] ∧ treePos (rgroup (densely 4 self true) 0) 0 self = self) ∧
      treeTop (rgroup (densely 4 0 true) 0) 0 = 2 ∧ treeTop (rgroup (densely 4 2 true) 0) 2 = 1 ∧ treeTop (rgroup (densely 3 2 false) 0) 2 = 1 ∧
      (rgroup (densely 3 2 false) 0).size ≤ 2 + 2 ^ 0 ∧ 2 + 2 ^ 0 < (rgroup (densely 4 2 false) 0).size ∧ (densely 4 2 false).rlp.fbuf = [] ∧
      ((densely 4 0 true).rlp.fbuf.map (fun f => (f.typ, f.group, f.tensor, f.tile, f.level))) = [(2, 0, 0, 0, 0)] ∧
      (∀ self ∈ [0, 2], ownerGroup (densely 4 self true) (tileSlab (densely 4 self true) (rgroup (densely 4 self true) 0) 0) = true) ∧
      ownerGroup (occupied (densely 4 0 true)) (tileSlab (densely 4 0 true) (rgroup (densely 4 0 true) 0) 0) = false := by decide +kernel
theorem test_owner : after (.ownerAdd 0 0) (windowed 0 1) (fun t => t.rlp.windows.map (·.count) == [1] && t.rlp.fbuf == []) = true ∧
    after (.denseNodeAdd 0 0 1) (densely 4 0 true) (fun t => t.rlp.dense.map (fun v => (v.level, v.vals)) == [(1, [0x40000000])]) = true := by
  decide +kernel
def unserved : State := let s := ranked 0 true 2 0; { s with boot := { s.boot with rlpVer := 0 } }
/-- A committed step, with a gather frame of its own still to be acknowledged or none. -/
def committedGroup (sent : Bool) : State :=
  let s := ranked 1 true 2 0
  { s with
    psc := { s.psc with committed := true }, rlp := { s.rlp with gsent := if sent then [(0, 1, frameOf 3 0 0 1 0 0 77 [])] else [] } }
theorem witness_CallingOff :
    isRoot (reporting 0) = true ∧ isRoot (reporting 1) = false ∧ (reporting 1).rlp.fragSent.length = (0 : Fin 4).val ∧
      (mergedFragment (reporting 1) 0).isSome = true ∧ statsOp (reporting 1) = some (7, 0) ∧ (noticing 0 false).psc.stepOn = true ∧
      (noticing 0 false).psc.committed = false ∧ (noticing 0 false).rlp.noticeDue = true ∧ isRoot (noticing 0 false) = true ∧
      isRoot (noticing 1 false) = false ∧ (noticing 1 true).rlp.notice = true ∧ (noticing 1 false).rlp.notice = false ∧
      (noticing 1 false).rlp.statsSent = false ∧ (ranked 0 true 1 0).rlp.noticeDue = false ∧ undecided (ranked 0 true 2 0) = true ∧
      portServes unserved = false ∧ undecided unserved = true ∧ portServes (ranked 0 true 2 0) = true ∧ portServes (ranked 1 true 2 0) = true ∧
      needsRank (ranked 1 true 2 0) 9 = true ∧ needsRank (ranked 1 true 1 0) 0 = false ∧ undecided (ranked 1 true 2 0) = true ∧
      undecided (committedOn 0) = false ∧ (z8 0xA).psc.stepOn = false ∧
      needsRank (committedGroup false) 9 = true ∧ (committedGroup false).psc.committed = true ∧
      (∀ g ∈ (committedGroup false).rlp.groups, gatherDone (committedGroup false) g = true) ∧ gatherWrites (committedGroup false) = false ∧
      (committedGroup false).rlp.gsent = [] ∧ (committedGroup true).rlp.gsent ≠ [] ∧ (ranked 1 true 2 0).rlp.statsSent = false ∧
      opsSettled (ranked 0 true 2 0) = true ∧
      opsSettled { ranked 0 true 2 0 with psc := { (ranked 0 true 2 0).psc with ops := [opOf (.spill 0 0)] } } = false := by
  decide +kernel
theorem test_peer_lost : after (.peerFail 9) (committedGroup true) (fun t => t.ras.gatherBad) = true ∧
    after (.peerFail 9) (committedGroup false) (fun t => !t.ras.gatherBad) = true := by decide +kernel
theorem test_outcome_lost : after .outcomeTimeout (ranked 1 true 2 0) (fun t => t.ras.lostWait && !t.psc.run && (getArray t 7).stopped) = true ∧
    after .deadlineExpire (ranked 1 true 2 0) (fun t => t.rlp.noticeDue) = true := by decide +kernel
def gathers : State :=
  let s := committedOn 0
  { s with rlp := { s.rlp with gsent := [(0, 1, frameOf 3 0 0 1 0 0 77 [])] }, ras := { s.ras with gatherBad := true } }
/-- An update waits for its retry, where its fetch failed before a slot took it. -/
def stuckFetch : State :=
  let s := committedOn 0
  { s with bmp := { s.bmp with jobs := [{ someJob (.move 7) false with failed := true }], redo := [someReq false false 0] },
           ras := { s.ras with updFail := some { slot := { veSlot with op := 0 }, slab := 0, tensor := 0, brow := 0, bcol := 0, tile := 0 } } }
def failedUpdate : State :=
  let s := vector (updDesc.take 8 ++ [0, 4] ++ updDesc.drop 10)
  { s with ras := { s.ras with updFail := some { slot := veSlot, slab := 0, tensor := 0, brow := 0, bcol := 0, tile := 0 } } }
theorem witness_Recoveries :
    (ranked 1 true 1 0).ras.lostWait = false ∧ lostOn.ras.lostWait = true ∧ lostOn.boot.stage ≠ 0 ∧ (committedOn 0).ras.updFail = none ∧
      (ranked 0 true 1 0).psc.committed = false ∧ stuckFetch.psc.committed = true ∧ (stuckFetch.ras.updFail.map (·.slot.op)) = some 0 ∧ (failedUpdate.ras.updFail.map (·.slot.op)) = some 1 ∧
      (stuckFetch.bmp.jobs.map (failedFetch stuckFetch)) = [true] ∧ failedUpdate.ras.updFail.isSome = true ∧
      gatherPending (committedOn 0) = false ∧ gatherPending gathers = true ∧
      gathers.ras.gatherBad = true ∧ (committedGroup true).ras.gatherBad = false ∧ portServes (committedGroup true) = true ∧
      gatherPending (committedGroup true) = true ∧ portServes { gathers with boot := { gathers.boot with rlpVer := 0 } } = false := by
  decide +kernel
theorem test_recoveries : after (.rasRetryUpdate 0) failedUpdate (fun t => t.ras.updFail.isNone && !t.psc.stopIssue) = true ∧
    after (.rasRetryGather 0) gathers (fun t => t.psc.attempt == 1 && (outgoing t 0).map (·.attempt) == [1]) = true ∧
    after (.rasOutcome 0 false false) lostOn (fun t => !t.ras.lostWait && t.psc.attempt == 1) = true := by decide +kernel
def spareRow : Element := { array := 0, isCol := false, index := 257 }
/-- Column 5 of array 0 declared, with a chunk in flight or none, and with no spare column left or two. -/
def declared (busy used : Bool) : State :=
  let s := z8 0xA
  let cols := [{ array := 0, isCol := true, index := 6 }, { array := 0, isCol := true, index := 7 }]
  { s with
    sump := { s.sump with chunks := if busy then [someChunk .latched false 0] else [] },
    ras := { s.ras with locPend := [(0, 5)], retired := if used then cols else [] } }
/-- A self-test of spares was forced while a pass was on the array. -/
def forcedTest : State := { z8 8 with ras := { (z8 8).ras with forced := [(2, 0)] } }
theorem witness_SpareSelfTest :
    8 ≤ (z8 8).boot.stage.toNat ∧ isUnusedSpare (z8 8) spareRow = true ∧ isUnusedSpare (z8 8) { spareRow with index := 0 } = false ∧
      (waitingRecords (z8 8) 6).length < 8 ∧ (z8 8).boot.stage ≠ 0xF ∧ betweenPasses (z8 8) 0 = true ∧
      forcedTest.ras.forced.contains (2, 0) = true ∧ Tab.get 0 forcedTest.ras.bgLoads 0 = 0 ∧ betweenPasses forcedTest 0 = true ∧
      quantumRuns forcedTest 2 0 (physSlab forcedTest 0) = true ∧ isUnusedSpare forcedTest spareRow = true ∧
      quantumRuns (z8 8) 2 0 (physSlab (z8 8) 0) = true ∧ betweenPasses (declared true false) 0 = false ∧
      quantumRuns (handed (z8 0xA) [slotOf 0 0 0]) 2 0 0 = false := by decide +kernel
theorem test_forced_self_test : after (.spareColumnSelfTest spareRow true) forcedTest (fun t =>
    t.ras.forced == [] && Tab.get 0 t.ras.bgLoads 0 == 512) = true := by decide +kernel
theorem test_spare_self_test : after (.spareColumnSelfTest spareRow false) (z8 8) (fun t =>
    t.ras.retired == [spareRow] && (waitingRecords t 6).map (·.code) == [BitVec.ofNat 16 Ev.spareTestFailed]) = true := by decide +kernel
def faulty (perm : Bool) : State :=
  let s := z8 0xA
  { s with ras := { s.ras with leaky := [(elemKey 2 5, 3)], perm := if perm then [elemKey 2 5] else [] } }
def retiring (busy : Bool) : State :=
  let s := declared busy false
  { s with ras := { s.ras with locPend := [], retPend := [{ array := 0, isCol := true, index := 5 }] } }
/-- No spare row of array 0 is left. -/
def rowless : State :=
  let s := declared false false
  { s with ras := { s.ras with retired := [{ array := 0, isCol := false, index := 256 }, { array := 0, isCol := false, index := 257 },
    { array := 0, isCol := false, index := 258 }, { array := 0, isCol := false, index := 259 }] } }
/-- A declared column that is already to be retired. -/
def both : State := let s := declared false false; { s with ras := { s.ras with retPend := [{ array := 0, isCol := true, index := 5 }] } }
def busyTwo : State := { two with sump := { two.sump with chunks := [someChunk .latched false 0] } }
/-- No spare of array 0 is left. -/
def spareless : State := { two with ras := { two.ras with retired := rowless.ras.retired ++
  [{ array := 0, isCol := true, index := 256 }, { array := 0, isCol := true, index := 257 },
   { array := 0, isCol := true, index := 258 }, { array := 0, isCol := true, index := 259 }] } }
def declaredRun : State := let s := declared false false; { s with psc := { s.psc with run := true } }
/-- The last spare columns of array 0 have failed their self-tests while a retirement waited. -/
def overtaken : State := let s := retiring false; { s with ras := { s.ras with retired := (List.range 8).map (fun i => { array := 0, isCol := true, index := 6 + i }) } }
theorem witness_Upkeep_overtaken :
    (∀ s ∈ [overtaken, asZ64 overtaken], s.ras.retPend.find? (fun e => e.array == 0) = some { array := 0, isCol := true, index := 5 } ∧
      logicalOf s 0 = some 0 ∧ atBoundary s 0 = true ∧ sparesLeft s 0 true = 0) ∧ spareFree overtaken 0 = false ∧
      spareFree (asZ64 overtaken) 0 = true ∧ sparesLeft (retiring false) 0 true ≠ 0 ∧
      leakyCount (z8 5) 3 (scrubIndex 0 0) + 1 < faultLimit (z8 5) 3 ∧ (z8 5).psc.stepOn = false := by decide +kernel
theorem test_overtaken : after (.retirementApply 0) overtaken (fun t => t.ras.retPend == [] && t.ras.failed == [0]) = true ∧
    after (.scrubQuantum 8 2 .corrected) (z8 5) (fun t => leakyCount t 3 (scrubIndex 8 2) == 1) = true := by decide +kernel
theorem witness_Upkeep :
    leakyCount (z8 0xA) 2 5 = 0 ∧ 0 < leakyCount (faulty false) 2 5 ∧ isPermanent (faulty false) 2 5 = false ∧ isPermanent (faulty true) 2 5 = true ∧
      (declared false false).ras.locPend.find? (fun x => x.1 == 0) = some (0, 5) ∧ logicalOf (declared false false) 0 = some 0 ∧
      atBoundary (declared true false) 0 = false ∧ atBoundary (declared false false) 0 = true ∧ sparesLeft (declared false false) 0 true ≠ 0 ∧
      sparesLeft (declared false false) 0 false ≠ 0 ∧ sparesLeft (declared false true) 0 true = 0 ∧ spareFree (declared false true) 0 = false ∧
      spareFree (asZ64 (declared false false)) 0 = true ∧ logicalOf (asZ64 (declared false false)) 0 = some 0 ∧ (z8 0xA).ras.locPend = [] ∧
      (retiring false).ras.retPend.find? (fun e => e.array == 0) = some { array := 0, isCol := true, index := 5 } ∧
      logicalOf (retiring false) 0 = some 0 ∧ atBoundary (retiring true) 0 = false ∧ atBoundary (retiring false) 0 = true ∧
      (z8 0xA).ras.retPend = [] ∧ (z8 0xA).slabs = 1 ∧ (z8 5).boot.stage ≠ 0 ∧ quantumRuns (z8 0xA) 0 0 0 = true ∧ quantumRuns (handed (z8 0xA) [slotOf 0 0 0]) 0 0 0 = false ∧
      sparesTaken (declared false false) 0 true < sparesLeft (declared false false) 0 true ∧
      sparesLeft (declared false true) 0 true ≤ sparesTaken (declared false true) 0 true ∧
      sparesTaken (declared false false) 0 false < sparesLeft (declared false false) 0 false ∧
      sparesLeft rowless 0 false ≤ sparesTaken rowless 0 false ∧
      { array := 0, isCol := true, index := 5 } ∈ (both).ras.retPend ∧ both.ras.locPend.find? (fun x => x.1 == 0) = some (0, 5) ∧
      atBoundary both 0 = true ∧ (z8 8).boot.stage ≠ 0xF ∧ 8 ≤ (z8 8).boot.stage.toNat ∧ quantumRuns (z8 8) 1 8 8 = true ∧
      quantumRuns (handed (z8 0xA) [slotOf 96 96 0]) 1 8 8 = false ∧ betweenPasses two 0 = true ∧ betweenPasses busyTwo 0 = false ∧
      (getArray (retiring false) 0).stopped = false ∧
      leakyCount (z8 0xA) 3 (scrubIndex 0 0) + 1 < faultLimit (z8 0xA) 3 ∧ (z8 0xA).psc.stepOn = false ∧ (z8 7).boot.stage.toNat < 8 ∧
      (z8 0xA).psc.run = false ∧ two.psc.run = true ∧ two.psc.issuing ≠ none := by decide +kernel
theorem witness_Upkeep_forced : hasSpare two 0 = true ∧ hasSpare spareless 0 = false ∧
      hasSpare busyTwo 0 = true ∧ physOf busyTwo 0 = 0 ∧ (retiring false).psc.run = false ∧ atBoundary (declaredRun) 0 = true ∧
      declaredRun.psc.run = true ∧ declaredRun.ras.locPend.find? (fun x => x.1 == 0) = some (0, 5) ∧ logicalOf declaredRun 0 = some 0 := by
  decide +kernel
theorem test_upkeep : after (.leakyDecay 2 5) (faulty false) (fun t => leakyCount t 2 5 == 2) = true ∧
    after (.localisationTest 0 .column) (declared false false) (fun t => t.ras.retPend.length == 1 && t.clock.aclk == 2048) = true ∧
    after (.retirementApply 0) (retiring false) (fun t => t.ras.retired == [{ array := 0, isCol := true, index := 5 }]) = true ∧
    after (.forcedBackgroundSlot 2 0) two (fun t => t.clock.aclk == 0 && Tab.get 0 t.ras.bgLoads 0 == 512) = true ∧
    after (.forcedBackgroundSlot 1 8) two (fun t => t.clock.aclk == 256 && t.ras.forced == [(1, 8)]) = true := by decide +kernel
/-- A pass is on array 0 while its self-test of spares is forced: its next LOAD waits with cause 15. -/
theorem test_forced_hold :
    let s := arrays [] { ArrayState.reset with active := some (somePass true) } [someChunk .latched false 0] []
    let u := { s with psc := { s.psc with issuing := some 0 } }
    betweenPasses u 0 = false ∧ physOf u 0 = 0 ∧ hasSpare u 0 = true ∧ (slotOf 0 0 (2 ^ 60)).opcode = 1 ∧
      after (.forcedBackgroundSlot 2 0) u (fun t => loadHold t (slotOf 0 0 (2 ^ 60)) == some 15) = true := by decide +kernel

end Sys2Proof.Tests
end

section
/-! Version tokens and bindings at the commit, the abort and the step start (R131). The commit and the abort are each long runs of
operations of which one alone writes the version state; the frame lemmas below say so of the others. -/

namespace Sys2Proof.TokenProofs

open Sys2Proof.Machine Sys2Proof.Safety Sys2Proof.Laws

/-! Folds that keep a part of the state. -/

theorem foldl_keeps {β γ : Type} (g : State → γ) {f : State → β → State} (h : ∀ t x, g (f t x) = g t) (l : List β) (s : State) :
    g (l.foldl f s) = g s := by
  induction l generalizing s with
  | nil => rfl
  | cons x l ih => exact (ih (f s x)).trans (h s x)

@[simp] theorem foldl_vers {β : Type} {f : State → β → State} (h : ∀ t x, (f t x).vers = t.vers) (l : List β) (s : State) :
    (l.foldl f s).vers = s.vers := foldl_keeps State.vers h l s

/-- What the fold of the pending counts, and the test for the step boundary after it, read of the state. -/
def tables (s : State) : Tab TensorVer × Psc × RegFile := (s.vers, s.psc, s.regs)

@[simp] theorem foldl_tables {β : Type} {f : State → β → State} (h : ∀ t x, tables (f t x) = tables t) (l : List β) (s : State) :
    tables (l.foldl f s) = tables s := foldl_keeps tables h l s

theorem vers_of_tables {s t : State} (h : tables t = tables s) : t.vers = s.vers := congrArg Prod.fst h

/-! Operations that keep `tables`: statistics records, scales, calibration counters and the governor at a commit. -/

@[simp] theorem raise_tables {s : State} {src c : Nat} {p : BitVec 24} : tables (raise s src c p) = tables s := by simp [tables]
@[simp] theorem raiseOpen_tables {s : State} {src c : Nat} : tables (raiseOpen s src c) = tables s := by simp [tables]
@[simp] theorem reservedRead_tables {s : State} {src a : Nat} : tables (reservedRead s src a) = tables s := by simp [tables]
@[simp] theorem countLife_tables {s : State} {i n : Nat} : tables (countLife s i n) = tables s := by simp [tables]
@[simp] theorem setLayer_tables {s : State} {l : Nat} {x : Layer} : tables (setLayer s l x) = tables s := by simp [tables]
@[simp] theorem setMbx_tables {s : State} {n : Nat} {m : Mailbox} : tables (setMbx s n m) = tables s := by simp [tables]
@[simp] theorem intPulse_tables {s : State} {n : Nat} : tables (intPulse s n) = tables s := by simp [tables]
@[simp] theorem portWrite_tables {s : State} {a : Nat} {bs : List Byte} : tables (portWrite s a bs) = tables s := by
  unfold portWrite
  split
  · rfl
  · simp
@[simp] theorem recWrite_tables {s : State} {x o n v : Nat} : tables (recWrite s x o n v) = tables s := by simp [recWrite]
@[simp] theorem noteRecord_tables {s : State} {x : Nat} : tables (noteRecord s x) = tables s := by
  unfold noteRecord
  split <;> simp
@[simp] theorem nextSigma_tables {s : State} {x : Nat} {st : Stream} : tables (nextSigma s x st) = tables s := by simp [nextSigma]
@[simp] theorem commitStream_tables {s : State} {x : Nat} {q : StreamStat} : tables (commitStream s x q) = tables s := by
  simp [commitStream]
@[simp] theorem commitFragment_tables {s : State} {f : Fragment} : tables (commitFragment s f) = tables s :=
  foldl_tables (fun _ _ => commitStream_tables) _ _
@[simp] theorem commitScales_tables {s : State} : tables (commitScales s) = tables s := by
  refine foldl_tables (fun t x => ?_) _ _
  dsimp only
  split <;> simp
@[simp] theorem noteRecords_tables {s : State} {scales gov : Bool} : tables (noteRecords s scales gov) = tables s := by
  refine foldl_tables (fun t x => ?_) _ _
  simp only [apply_ite tables, noteRecord_tables, ite_self]
@[simp] theorem writeCalib_tables {s : State} {t : Nat} : tables (writeCalib s t) = tables s := by
  unfold writeCalib
  dsimp only
  split <;> simp
@[simp] theorem postMailbox_tables {s : State} {n : Nat} {v : BitVec 64} : tables (postMailbox s n v) = tables s := by
  simp [postMailbox]
@[simp] theorem govMove_tables {s : State} {l dst cause products : Nat} : tables (govMove s l dst cause products) = tables s := by
  unfold govMove
  simp only [countLife_tables, setLayer_tables, raise_tables]
  exact portWrite_tables
@[simp] theorem governLayer_tables {s : State} {l : Nat} : tables (governLayer s l) = tables s := by
  simp only [governLayer, apply_ite tables, govMove_tables, raise_tables, setLayer_tables, ite_self]
@[simp] theorem govern_tables {s : State} {lockMatch : Bool} : tables (govern s lockMatch) = tables s := by
  unfold govern
  split
  · simp
  · exact foldl_tables (fun _ _ => governLayer_tables) _ _

/-! Operations of an abort and of a step start that keep the version state. -/

@[simp] theorem abortPassage_vers {s : State} {px : Nat × Passage} : (abortPassage s px).vers = s.vers := by
  unfold abortPassage
  dsimp only
  split <;> simp
@[simp] theorem keepJobs_vers {s : State} {f : Job → Bool} : (keepJobs s f).vers = s.vers := rfl
@[simp] theorem settleOps_vers {s : State} : (settleOps s).vers = s.vers := rfl
@[simp] theorem returnCredits_vers {s : State} {f : BmpReq → Bool} : (returnCredits s f).vers = s.vers := rfl
@[simp] theorem releaseOwners_vers {s : State} {f : Nat × Nat → Bool} : (releaseOwners s f).vers = s.vers := by
  unfold releaseOwners
  dsimp only
  split <;> simp
@[simp] theorem resetSump_vers {s : State} : (resetSump s).vers = s.vers := rfl
@[simp] theorem sampleLevels_vers {s : State} : (sampleLevels s).vers = s.vers := by
  unfold sampleLevels
  dsimp only
  split
  · rfl
  · refine foldl_vers (fun t n => ?_) _ _
    unfold levelEdge
    dsimp only
    split <;> rfl
@[simp] theorem postMailbox_vers {s : State} {n : Nat} {v : BitVec 64} : (postMailbox s n v).vers = s.vers :=
  vers_of_tables postMailbox_tables
@[simp] theorem placeSpares_vers {s : State} : (placeSpares s).vers = s.vers := rfl
@[simp] theorem endHold_vers {s : State} {h : Nat} : (endHold s h).vers = s.vers := by
  unfold endHold
  dsimp only
  split <;> simp
@[simp] theorem clearStepQueues_vers {s : State} : (clearStepQueues s).vers = s.vers := by
  simp [clearStepQueues]
@[simp] theorem releaseStaging_vers {s : State} : (releaseStaging s).vers = s.vers := rfl
@[simp] theorem clearScheduler_vers {s : State} : (clearScheduler s).vers = s.vers := rfl
@[simp] theorem lifeStalls_vers {s : State} : (lifeStalls s).vers = s.vers := by
  simp only [lifeStalls]
@[simp] theorem auditOne_vers {s : State} {q : Nat} : (auditOne s q).vers = s.vers := by
  simp only [auditOne, apply_ite State.vers, countLife_frame, raise_frame, ite_self]
@[simp] theorem auditStep_vers {s : State} : (auditStep s).vers = s.vers := by
  simp only [auditStep, foldl_vers (fun _ _ => auditOne_vers)]

/-! Events of the tables that a step start reads, and what it writes of them. -/

@[simp] theorem noteTable_vers {s : State} {a n : Nat} : (noteTable s a n).vers = s.vers := by
  unfold noteTable
  split <;> simp
@[simp] theorem notePassage_vers {s : State} {src c p : Nat} {payload : BitVec 24} :
    (notePassage s src c p payload).vers = s.vers := by simp [notePassage]
@[simp] theorem resetSigma_vers {s : State} {x : Nat} {sigma : Int} {fmt : Nat} : (resetSigma s x sigma fmt).vers = s.vers :=
  vers_of_tables (by simp [resetSigma])
@[simp] theorem noteRecord_vers {s : State} {x : Nat} : (noteRecord s x).vers = s.vers := vers_of_tables noteRecord_tables
@[simp] theorem checkRule_vers {s : State} {l : Nat} : (checkRule s l).vers = s.vers := by
  simp only [checkRule, apply_ite State.vers, raise_frame, reservedRead_frame, noteTable_vers, ite_self]
@[simp] theorem settleLayer_vers {s : State} {l : Nat} : (settleLayer s l).vers = s.vers := by
  unfold settleLayer
  dsimp only
  split <;> simp
@[simp] theorem checkOutliers_vers {s : State} {x : Nat} : (checkOutliers s x).vers = s.vers := by
  simp only [checkOutliers, apply_ite State.vers, raiseOnceStep_frame, noteTable_vers, ite_self]
@[simp] theorem checkStream_vers {s : State} {x : Nat} : (checkStream s x).vers = s.vers := by
  simp only [checkStream, apply_ite State.vers, resetSigma_vers, noteRecord_vers, checkOutliers_vers, raiseOnceStep_frame,
    reservedRead_frame, noteTable_vers, ite_self]
/-- `reserved_write` of a structure of a table, if it has a reserved field that is not zero. -/
theorem noteReserved_vers {s : State} {bad : Prop} [Decidable bad] {src a : Nat} :
    (if bad then reservedRead s src a else s).vers = s.vers := by
  split <;> simp
@[simp] theorem checkPassage_vers {s : State} {p : Nat} : (checkPassage s p).vers = s.vers := by
  simp only [checkPassage, apply_ite State.vers, raise_frame, foldl_vers, reservedRead_frame, noteTable_vers, ite_self, implies_true]
@[simp] theorem markBindings_vers {s : State} :
    (markBindings s).vers = s.vers.map (fun kv => (kv.1, { kv.2 with atStart := kv.2.bound })) := rfl
theorem firstAttempt_vers {s : State} : (firstAttempt s).vers = (markBindings s).vers := by
  simp [firstAttempt]

@[simp] theorem noteEntries_vers {s : State} {a width n limit : Nat} : (noteEntries s a width n limit).vers = s.vers := by
  unfold noteEntries
  split <;> simp
@[simp] theorem noteRgroup_vers {s : State} {g : Nat} : (noteRgroup s g).vers = s.vers := by
  unfold noteRgroup
  dsimp only
  split
  · rfl
  · simp [noteReserved_vers]
@[simp] theorem releaseSlot_vers {s : State} {k : Nat} : (releaseSlot s k).vers = s.vers := rfl
@[simp] theorem takeFree_vers {s : State} {k p : Nat} {loan fixed spec : Bool} :
    (takeFree s k p loan fixed spec).vers = s.vers := rfl
@[simp] theorem dropBuffers_vers {s : State} : (dropBuffers s).vers = s.vers := foldl_vers (fun _ _ => releaseSlot_vers) _ _
@[simp] theorem takeBuffers_vers {s : State} : (takeBuffers s).vers = s.vers := by
  refine foldl_vers (fun t k => ?_) _ _
  split <;> simp
@[simp] theorem readGroups_vers {s : State} : (readGroups s).vers = s.vers := by
  simp [readGroups]
@[simp] theorem openMailbox_vers {s : State} {n : Nat} : (openMailbox s n).vers = s.vers := by simp [openMailbox]
@[simp] theorem startRamp_vers {s : State} : (startRamp s).vers = s.vers := by
  unfold startRamp
  split <;> rfl

/-! Fetches and the passes over the passage table at a step start. -/

@[simp] theorem addHolder_vers {s : State} {k p : Nat} {spec : Bool} : (addHolder s k p spec).vers = s.vers := by
  unfold addHolder
  split
  · split <;> rfl
  · rfl
@[simp] theorem takeSlots_vers {s : State} {slab part p own : Nat} {fixed spec : Bool} {l : List Nat} :
    (takeSlots s slab part p fixed spec own l).vers = s.vers := by
  induction l generalizing s own with
  | nil => rfl
  | cons x l ih => exact ih
theorem allocate_vers {s t : State} {slab part p : Nat} {slots : List Nat} {spec fixed : Bool}
    (h : allocate s slab part slots p spec fixed = some t) : t.vers = s.vers := by
  unfold allocate at h
  dsimp only at h
  split at h
  · cases h
  · cases h
    simp
@[simp] theorem dropHolder_vers {s : State} {p k : Nat} : (dropHolder p s k).vers = s.vers := by
  unfold dropHolder
  split
  · dsimp only
    split <;> simp
  · rfl
@[simp] theorem returnPrefetch_vers {s : State} {p : Nat} : (returnPrefetch s p).vers = s.vers := by
  unfold returnPrefetch
  dsimp only
  split <;> simp
theorem allocateFg_vers {s t : State} {slab part p n : Nat} {slots : List Nat} {fixed : Bool}
    (h : allocateFg s slab part slots p fixed n = some t) : t.vers = s.vers := by
  induction n generalizing s with
  | zero => exact allocate_vers h
  | succ n ih =>
    unfold allocateFg at h
    split at h
    next u hu =>
      cases h
      exact allocate_vers hu
    next =>
      split at h
      · exact (ih h).trans returnPrefetch_vers
      · cases h
@[simp] theorem requestSlots_vers {s : State} {slab part p : Nat} {slots : List Nat} :
    (requestSlots s slab part slots p).vers = s.vers := by
  unfold requestSlots
  dsimp only
  split
  · rfl
  · split
    next t ht => exact allocateFg_vers ht
    next => rfl
@[simp] theorem startFetch_vers {s : State} {p i : Nat} {spec : Bool} : (startFetch s p i spec).vers = s.vers := by
  unfold startFetch
  dsimp only
  split
  · rfl
  · split
    · rfl
    · split
      · split
        next t ht =>
          have hv := allocate_vers ht
          exact hv
        next => rfl
      · exact requestSlots_vers
@[simp] theorem startFetches_vers {s : State} {p : Nat} {spec : Bool} : (startFetches s p spec).vers = s.vers :=
  foldl_vers (fun _ _ => startFetch_vers) _ _
@[simp] theorem dropFalse_vers {s : State} {p : Nat} : (dropFalse s p).vers = s.vers := by
  unfold dropFalse
  dsimp only
  split <;> simp
@[simp] theorem prefetchWindow_vers {s : State} : (prefetchWindow s).vers = s.vers := by
  refine foldl_vers (fun t q => ?_) _ _
  split <;> simp
@[simp] theorem noteVariant_vers {s : State} {p : Nat} {e : PEntry} : (noteVariant s p e).vers = s.vers := by
  unfold noteVariant
  split
  · simp
  · split <;> simp
@[simp] theorem noteVer_vers {s : State} {t : Nat} : (noteVer s t).vers = s.vers := by
  unfold noteVer noteVerReserved
  split
  · split <;> simp
  · rfl
@[simp] theorem noteVersion_vers {s : State} {p i : Nat} {e : REntry} : (noteVersion s p i e).vers = s.vers := by
  simp only [noteVersion, apply_ite State.vers, setPassage_frame, raiseOpenPassage_frame, raiseOpenStep_frame, noteVer_vers, ite_self]
@[simp] theorem noteVersions_vers {s : State} {p : Nat} : (noteVersions s p).vers = s.vers := by
  refine foldl_vers (fun t r => ?_) _ _
  split <;> simp
@[simp] theorem considerPassage_vers {s : State} {p : Nat} : (considerPassage s p).vers = s.vers := by
  simp only [considerPassage, apply_ite State.vers, setPassage_frame, startFetches_vers, noteVersions_vers, noteVariant_vers, ite_self]
@[simp] theorem refresh_vers {s : State} : (refresh s).vers = s.vers := by
  unfold refresh
  split <;> simp

/-! Tables whose values are all changed by one function that fixes the value of a key not listed. -/

theorem lookup_mapValues {α β : Type} (f : α → β) (t : Tab α) (k : Nat) :
    List.lookup k (t.map (fun kv => (kv.1, f kv.2))) = (List.lookup k t).map f := by
  induction t with
  | nil => rfl
  | cons kv t ih => cases hk : k == kv.1 <;> simp [List.lookup, hk, ih]
theorem get_mapValues {α : Type} {f : α → α} {d : α} (hd : f d = d) (t : Tab α) (k : Nat) :
    Tab.get d (t.map (fun kv => (kv.1, f kv.2))) k = f (Tab.get d t k) := by
  unfold Tab.get
  rw [lookup_mapValues]
  cases List.lookup k t with
  | none => exact hd.symm
  | some v => rfl

/-! The version state of one tensor after a commit, after an abort, and at a step's start (R131). -/

/-- A tensor whose pending counts have entered its tags' tokens. -/
def folded (v : TensorVer) : TensorVer :=
  { v with tags := v.tags.map (fun g => (g.1, foldTag g.2)), acquired := v.acquired + v.issued, released := v.released + v.returned }
/-- A tag that an abort leaves without a pending count. -/
def noPending (g : TagState) : TagState := { g with pending := 0 }
/-- A tensor as an abort leaves it. -/
def undone (v : TensorVer) : TensorVer := { v with tags := v.tags.map (fun g => (g.1, noPending g.2)), bound := v.atStart }
/-- A tensor whose bindings are marked as those of a step's start. -/
def marked (v : TensorVer) : TensorVer := { v with atStart := v.bound }

theorem commitVersions_vers {s : State} : (commitVersions s).vers = s.vers.map (fun kv => (kv.1, folded kv.2)) := rfl
theorem abortVersions_vers {s : State} : (abortVersions s).vers = s.vers.map (fun kv => (kv.1, undone kv.2)) := rfl

theorem getVer_folded {s t : State} (h : t.vers = (commitVersions s).vers) (x : Nat) : getVer t x = folded (getVer s x) := by
  unfold getVer
  rw [h, commitVersions_vers]
  exact get_mapValues (by decide) _ _
theorem getVer_undone {s t : State} (h : t.vers = (abortVersions s).vers) (x : Nat) : getVer t x = undone (getVer s x) := by
  unfold getVer
  rw [h, abortVersions_vers]
  exact get_mapValues (by decide) _ _
theorem getVer_marked {s t : State} (h : t.vers = (markBindings s).vers) (x : Nat) : getVer t x = marked (getVer s x) := by
  unfold getVer
  rw [h, markBindings_vers]
  exact get_mapValues (f := marked) rfl _ _

theorem getTag_folded (v : TensorVer) (tag : Nat) : getTag (folded v) tag = foldTag (getTag v tag) :=
  get_mapValues (by decide) v.tags tag
theorem getTag_undone (v : TensorVer) (tag : Nat) : getTag (undone v) tag = noPending (getTag v tag) :=
  get_mapValues (by decide) v.tags tag
/-- A sum of tokens and pending count that is not below zero is kept whole. -/
theorem foldTag_tokens {g : TagState} (h : 0 ≤ (g.tokens : Int) + g.pending) :
    ((foldTag g).tokens : Int) = g.tokens + g.pending ∧ (foldTag g).pending = 0 :=
  ⟨Int.toNat_of_nonneg h, rfl⟩
/-- Wherever the version state is that of the commit, each tag's tokens have taken in its pending count. -/
theorem tokens_of_commitVersions {s t : State} (h : t.vers = (commitVersions s).vers) (x tag : Nat)
    (hsum : 0 ≤ ((getTag (getVer s x) tag).tokens : Int) + (getTag (getVer s x) tag).pending) :
    ((getTag (getVer t x) tag).tokens : Int) = (getTag (getVer s x) tag).tokens + (getTag (getVer s x) tag).pending ∧
      (getTag (getVer t x) tag).pending = 0 := by
  rw [getVer_folded h, getTag_folded]
  exact foldTag_tokens hsum

/-! The commit: the counts are folded between operations that keep the version state, and the step boundary does not follow while
a valid passage has still to complete (R20, R21). -/

/-- A valid passage of the table has not completed. -/
def Unfinished (s : State) : Prop := ∃ q, q < min 4096 (ptCount s) ∧ (pentry s q).valid = true ∧ passageDone s q = false

theorem mapIn_congr {s t : State} (hregs : t.regs = s.regs) (phase : Bool) (a n : Nat) : mapIn t phase a n = mapIn s phase a n := by
  have hpair : ∀ b, livePair t b = livePair s b := fun b => by simp only [livePair, liveReg, hregs]
  have hbase : ∀ wr, efBase t wr = efBase s wr := fun wr => by simp only [efBase, hpair]
  have hsize : efSize t = efSize s := hpair _
  have hbuf : ∀ one, efBuf t one = efBuf s one := fun one => by simp only [efBuf, hpair]
  simp only [mapIn, hbase, hsize, hbuf]
/-- What `Unfinished` asks is read from the step's sample, the passages' status and the live windows. -/
theorem unfinished_congr {s t : State} (hsample : t.psc.sample = s.psc.sample) (hpass : t.psc.passages = s.psc.passages)
    (hregs : t.regs = s.regs) (h : Unfinished s) : Unfinished t := by
  obtain ⟨q, hq, hvalid, hdone⟩ := h
  have hreg : ∀ a, smpReg t a = smpReg s a := fun a => by simp only [smpReg, hsample]
  have hbytes : ∀ a n, smpBytes t a n = smpBytes s a n := fun a n => by
    simp only [smpBytes, mapIn_congr hregs, hsample]
  refine ⟨q, ?_, ?_, ?_⟩
  · simpa only [ptCount, hreg] using hq
  · simpa only [pentry, ptBase, smpPair, hreg, hbytes] using hvalid
  · simpa only [passageDone, getPassage, hpass] using hdone

theorem allDone_of_unfinished {s : State} (h : Unfinished s) : allDone s (fun _ => true) none = false := by
  obtain ⟨q, hq, hvalid, hdone⟩ := h
  refine List.all_eq_false.2 ⟨q, List.mem_range.2 hq, ?_⟩
  simp [hvalid, hdone]
theorem tryBoundary_of_unfinished {s : State} (h : Unfinished s) : tryBoundary s = s := by
  unfold tryBoundary
  simp [allDone_of_unfinished h]

/-- The part of a commit before it folds the counts. -/
def commitRecords (s : State) (frags : Option (List Fragment)) (lockMatch : Bool) : State :=
  let s := { s with rlp := { s.rlp with phase := !s.rlp.phase } }
  let s := match frags with
    | some fs => commitScales (fs.foldl commitFragment s)
    | none => s
  govern ((List.range 64).foldl writeCalib (noteRecords s frags.isSome lockMatch)) lockMatch
/-- The part of a commit after it has folded the counts, up to the test for the step boundary. -/
def commitAnnounce (s : State) : State :=
  let s := { s with gov := { s.gov with loc := [], carry := [] },
                    ras := { s.ras with lostWait := false }, rlp := { s.rlp with lost := false } }
  let s := raise s 2 Ev.stepCommit (BitVec.ofNat 24 s.psc.step.toNat)
  let s := countLife (postMailbox s 0 (stepValue s)) 2 1
  { s with psc := { s.psc with committed := true } }
theorem commitStep_eq (s : State) (frags : Option (List Fragment)) (lockMatch : Bool) :
    commitStep s frags lockMatch = tryBoundary (commitAnnounce (commitVersions (commitRecords s frags lockMatch))) := rfl

theorem commitRecords_tables {s : State} {frags : Option (List Fragment)} {lockMatch : Bool} :
    tables (commitRecords s frags lockMatch) = tables s := by
  unfold commitRecords
  simp only [govern_tables, foldl_tables (fun _ _ => writeCalib_tables), noteRecords_tables]
  cases frags with
  | none => rfl
  | some fs =>
    simp only [commitScales_tables, foldl_tables (fun _ _ => commitFragment_tables)]
    rfl
theorem commitRecords_frame (s : State) (frags : Option (List Fragment)) (lockMatch : Bool) :
    (commitRecords s frags lockMatch).vers = s.vers ∧ (commitRecords s frags lockMatch).psc = s.psc ∧
      (commitRecords s frags lockMatch).regs = s.regs := by
  simpa [tables] using (commitRecords_tables (s := s) (frags := frags) (lockMatch := lockMatch))
theorem commitAnnounce_frame (s : State) :
    (commitAnnounce s).vers = s.vers ∧ (commitAnnounce s).psc.sample = s.psc.sample ∧
      (commitAnnounce s).psc.passages = s.psc.passages ∧ (commitAnnounce s).regs = s.regs := by
  simp [commitAnnounce, postMailbox]

/-- Short of the step boundary, the version state after a commit is that with the counts folded. -/
theorem commitStep_vers {s : State} (frags : Option (List Fragment)) (lockMatch : Bool) (h : Unfinished s) :
    (commitStep s frags lockMatch).vers = (commitVersions s).vers := by
  obtain ⟨hvers, hpsc, hregs⟩ := commitRecords_frame s frags lockMatch
  have hfold : Unfinished (commitVersions (commitRecords s frags lockMatch)) :=
    unfinished_congr (congrArg Psc.sample hpsc) (congrArg Psc.passages hpsc) hregs h
  obtain ⟨hvers', hsample', hpass', hregs'⟩ := commitAnnounce_frame (commitVersions (commitRecords s frags lockMatch))
  have hend := unfinished_congr hsample' hpass' hregs' hfold
  rw [commitStep_eq, tryBoundary_of_unfinished hend, hvers', commitVersions_vers, commitVersions_vers, hvers]

/-! The abort: the counts are dropped and the bindings restored between operations that keep the version state. -/

theorem abortStep_vers {s : State} : (abortStep s).vers = (abortVersions s).vers := by
  simp only [abortStep, apply_ite State.vers, auditStep_vers, lifeStalls_vers, raise_frame, countLife_frame, placeSpares_vers,
    clearStepQueues_vers, releaseStaging_vers, clearScheduler_vers, postMailbox_vers, sampleLevels_vers, resetSump_vers,
    abortVersions_vers, releaseOwners_vers, settleOps_vers, returnCredits_vers, foldl_vers (fun _ _ => abortPassage_vers), ite_self]

/-! The step start: a first attempt marks the bindings, and nothing after it writes the version state. -/

theorem dueAbort_of_notDue {s : State} (h : s.psc.abortDue = false) : dueAbort s = s := by
  simp [dueAbort, h]
theorem runSet_vers {s : State} (hstage : s.boot.stage = 0xA) (hdue : s.psc.abortDue = false) (hrun : s.psc.run = false)
    (hrepeats : s.psc.repeats = false) (haudit : s.ras.audit = false) (hlimited : s.psc.limited = false)
    (hlost : s.ras.lostWait = false) : (runSet s).vers = (markBindings s).vers := by
  simp [runSet, dueAbort_of_notDue hdue, hstage, hrun, hrepeats, haudit, hlimited, hlost, firstAttempt_vers]

/-- Settles O2. Each of the four operations leaves the version state that one of `commitVersions`, `abortVersions` and `markBindings`
gives, and these change the tensors one by one. -/
theorem tokensAtCommitAndAbort : Obligations.TokensAtCommitAndAbort := by
  refine ⟨?_, ?_, ?_, ?_⟩
  · intro s frags lockMatch hunfinished x tag
    exact tokens_of_commitVersions (commitStep_vers frags lockMatch hunfinished) x tag
  · intro s x tag
    exact tokens_of_commitVersions rfl x tag
  · intro s x
    rw [getVer_undone abortStep_vers]
    refine ⟨rfl, fun tag => ?_⟩
    rw [getTag_undone]
    exact ⟨rfl, rfl⟩
  · intro s req hstage hdue hrun hrepeats haudit hlimited hlost
    have hpowered : s.boot.stage ≠ 0 := by simp [hstage]
    refine ⟨runSet (dropHold s req), congrArg Host.Outcome.next (if_neg hpowered), fun x => ?_⟩
    have hvers : (runSet (dropHold s req)).vers = (markBindings (dropHold s req)).vers :=
      runSet_vers (by simpa using hstage) (by simpa using hdue) (by simpa using hrun) (by simpa using hrepeats)
        (by simpa using haudit) (by simpa using hlimited) (by simpa using hlost)
    rw [getVer_marked hvers]
    rfl

end Sys2Proof.TokenProofs
end

section
/-! An array slot on an array that the variant in force disables (R165). Its whole effect is one call of `raiseOncePassage`, so what an
event can change, and what becomes of one that a passage has raised before, say the rest. -/

namespace Sys2Proof.DisabledProofs

open Sys2Proof.Machine Sys2Proof.Safety Sys2Proof.Laws

/-! What raising an event writes, once or each time. -/

theorem intPulse_writes (s : State) (n : Nat) : intPulse s n = { s with intc := (intPulse s n).intc } := by
  unfold intPulse
  split <;> rfl
theorem loseEvents_writes (s : State) (n : Nat) :
    loseEvents s n = { s with evt := (loseEvents s n).evt, intc := (loseEvents s n).intc, life := (loseEvents s n).life } := by
  unfold loseEvents
  rw [intPulse_writes]
  rfl
/-- The log, the interrupt controller, the units of the log's slots and the flowstone accumulators, and nothing else. -/
theorem raise_writes (s : State) (src c : Nat) (p : BitVec 24) :
    raise s src c p = { s with
      evt := (raise s src c p).evt, intc := (raise s src c p).intc, ras := (raise s src c p).ras, life := (raise s src c p).life } := by
  unfold raise
  dsimp only
  split
  case isTrue => rfl
  case isFalse =>
    rw [loseEvents_writes]
    rfl

theorem raiseOncePassage_of_raised {s : State} {src c key : Nat} {p : BitVec 24} (h : s.psc.onceAtt.contains (0, c, key) = true) :
    raiseOncePassage s src c key p = s := if_pos h
theorem raiseOncePassage_of_new {s : State} {src c key : Nat} {p : BitVec 24} (h : s.psc.onceAtt.contains (0, c, key) = false) :
    raiseOncePassage s src c key p = raise { s with psc := { s.psc with onceAtt := (0, c, key) :: s.psc.onceAtt } } src c p :=
  if_neg (ne_true_of_eq_false h)

theorem raiseOncePassage_writes (s : State) (src c key : Nat) (p : BitVec 24) :
    raiseOncePassage s src c key p = { s with
      psc := { s.psc with onceAtt := (raiseOncePassage s src c key p).psc.onceAtt }, evt := (raiseOncePassage s src c key p).evt,
      intc := (raiseOncePassage s src c key p).intc, ras := (raiseOncePassage s src c key p).ras,
      life := (raiseOncePassage s src c key p).life } := by
  cases h : s.psc.onceAtt.contains (0, c, key) with
  | true => rw [raiseOncePassage_of_raised h]
  | false =>
    rw [raiseOncePassage_of_new h, raise_writes]
/-- Whether it is raised now or was before, the passage has raised it. -/
theorem raiseOncePassage_raised (s : State) (src c key : Nat) (p : BitVec 24) :
    (raiseOncePassage s src c key p).psc.onceAtt.contains (0, c, key) = true := by
  cases h : s.psc.onceAtt.contains (0, c, key) with
  | true => rwa [raiseOncePassage_of_raised h]
  | false => simp only [raiseOncePassage_of_new h, raise_frame, List.contains_cons, BEq.rfl, Bool.true_or]
theorem raiseOncePassage_seq {s : State} {src c key : Nat} {p : BitVec 24} (h : s.psc.onceAtt.contains (0, c, key) = false) :
    seqOf (raiseOncePassage s src c key p) src = seqOf s src + 1 := by
  rw [raiseOncePassage_of_new h]
  exact raise_seq
theorem raiseOncePassage_queued {s : State} {src c key : Nat} {p : BitVec 24} (h : s.psc.onceAtt.contains (0, c, key) = false)
    (hroom : (waitingRecords s src).length < 8) :
    waitingRecords (raiseOncePassage s src c key p) src = waitingRecords s src ++ [newRecord s src c p] := by
  rw [raiseOncePassage_of_new h]
  exact raise_queued hroom

/-! The slot at the front of the accepted ones, on a disabled array. -/

/-- The state once the scheduler has handed its front slot over. -/
def handOver (s : State) (rest : List Slot) : State := { s with psc := { s.psc with accepted := rest } }
theorem takeSlot_front {s : State} {sl : Slot} {rest : List Slot} {p : Slot → Bool} (hfront : s.psc.accepted = sl :: rest)
    (hp : p sl = true) : takeSlot s p = some (sl, handOver s rest) := by
  simp [takeSlot, hfront, hp, handOver]
theorem arraySlot_iff {sl : Slot} {a op : Nat} : sl.arraySlot a op = true ↔ sl.index < 64 ∧ sl.array = a ∧ sl.opcode = op := by
  simp [Slot.arraySlot, and_assoc]

theorem doLoad_of_disabled {s : State} {sl : Slot} (h : (castOf s sl.array).enabled = false) :
    doLoad s sl = noteDisabled s sl.passage sl.array := by
  simp [doLoad, h]
theorem doBurst_of_disabled {s : State} {sl : Slot} (h : (castOf s sl.array).enabled = false) :
    doBurst s sl = noteDisabled s sl.passage sl.array := by
  simp [doBurst, h]
theorem noteDisabled_sump (s : State) (p a : Nat) : (noteDisabled s p a).sump = s.sump := by
  simp [noteDisabled, notePassage]
/-- Where the array streams nothing, no corrupt entry is read (R333). -/
theorem noteCorrupt_of_sump {s t : State} (h : t.sump = s.sump) (a : Nat) (corrupt : Option (BitVec 17)) :
    noteCorrupt s t a corrupt = t := by
  have hlast : (getArray t a).last = (getArray s a).last := by rw [getArray, getArray, h]
  cases corrupt with
  | none => rfl
  | some w => exact if_pos hlast

/-- A command that takes a LOAD or a BURST slot of a disabled array hands the slot over and notes the array. -/
theorem exec_of_disabled {s : State} {a : Fin 64} {sl : Slot} {rest : List Slot} {c : Instr} (hfront : s.psc.accepted = sl :: rest)
    (hindex : sl.index < 64) (harray : sl.array = a.val) (hoff : (castOf s a.val).enabled = false)
    (hc : (c = .load a ∧ sl.opcode = 1) ∨ ((∃ b, c = .burst a b) ∧ sl.opcode = 2)) :
    exec c s = .next (noteDisabled (handOver s rest) sl.passage a.val) := by
  have hoff' : (castOf (handOver s rest) sl.array).enabled = false := by rw [harray]; exact hoff
  rcases hc with ⟨rfl, hop⟩ | ⟨⟨corrupt, rfl⟩, hop⟩
  · change execLoad a s = _
    rw [execLoad, takeSlot_front hfront (arraySlot_iff.2 ⟨hindex, harray, hop⟩)]
    dsimp only
    rw [doLoad_of_disabled hoff', harray]
  · change execBurst a corrupt s = _
    rw [execBurst, takeSlot_front hfront (arraySlot_iff.2 ⟨hindex, harray, hop⟩)]
    dsimp only
    rw [doBurst_of_disabled hoff', noteCorrupt_of_sump (noteDisabled_sump _ _ _), harray]

/-- An array alone in a payload is in its top three bits (R308). -/
theorem arrayPayload_alone (a : Nat) : arrayPayload a [] = BitVec.ofNat 24 (a % 8 * 2 ^ 21) := by
  simp [arrayPayload, pack, packAt]
theorem noteDisabled_eq (s : State) (p a : Nat) :
    noteDisabled s p a = raiseOncePassage s (0x10 + a / 8) Ev.arrayDisabled p (BitVec.ofNat 24 (a % 8 * 2 ^ 21)) := by
  rw [← arrayPayload_alone]
  rfl

/-- Settles O38. With its slot handed over, the state meets the facts about `raiseOncePassage`. -/
theorem disabledArray : Obligations.DisabledArray := by
  intro s a sl rest c hfront hindex harray hoff hc
  refine ⟨_, exec_of_disabled hfront hindex harray hoff hc, ?_⟩
  rw [noteDisabled_eq]
  have hwrites := raiseOncePassage_writes (handOver s rest) (0x10 + a.val / 8) Ev.arrayDisabled sl.passage
    (BitVec.ofNat 24 (a.val % 8 * 2 ^ 21))
  refine ⟨by rw [hwrites]; rfl, by rw [hwrites]; rfl, by rw [hwrites]; rfl, ?_, ?_, raiseOncePassage_raised _ _ _ _ _, hwrites⟩
  · intro hraised
    rw [raiseOncePassage_of_raised (s := handOver s rest) hraised]
    rfl
  · intro hnew
    exact ⟨raiseOncePassage_seq (s := handOver s rest) hnew, raiseOncePassage_queued (s := handOver s rest) hnew⟩

end Sys2Proof.DisabledProofs
end
